-- ==== Sys2Proof/Word.lean ====
section
/-!
DEFINITION. The 64-bit register word and its two readings (00_scope.md R10, R11).
-/

namespace Sys2Proof

/-- A register: an integer in `[0, 2^64)` (00_scope.md R11), bit 0 least significant (R10). -/
abbrev Word := BitVec 64

/-- One byte lane of the host port (10_state.md R43). -/
abbrev Byte := BitVec 8

/-- `u64(v)`: `v mod 2^64` (00_scope.md R11). -/
def u64 (v : Int) : Word := BitVec.ofInt 64 v

/-- `s64(x)`: the two's-complement reading (00_scope.md R11). -/
def s64 (x : Word) : Int := x.toInt

end Sys2Proof
end

