-- ==== Sys2Proof/Machine/Float.lean ====
section
/-!
DEFINITION. IEEE 754 binary64 on register words (00_scope.md R12): the encoding, one rounding to
nearest with ties to even, and the operations `+ - * /`, `sqrt`, `floor` and the comparisons.
-/

namespace Sys2Proof.Machine

/-- What a binary64 encoding stands for; `fin neg m e` is `(-1)^neg * m * 2^e` (00_scope.md R12). -/
inductive FVal where
  | nan
  | inf (neg : Bool)
  | fin (neg : Bool) (m : Nat) (e : Int)
  deriving DecidableEq, Repr

/-- Bit 63, the sign (00_scope.md R12). -/
def f64Sign (w : Word) : Bool := w.getLsbD 63

/-- Bits 62:52, the biased exponent (00_scope.md R12). -/
def f64Exponent (w : Word) : Nat := (w.extractLsb' 52 11).toNat

/-- Bits 51:0, the fraction (00_scope.md R12). -/
def f64Fraction (w : Word) : Nat := (w.extractLsb' 0 52).toNat

/-- `F(x)`: read a register word as binary64 (00_scope.md R12). -/
def f64Value (w : Word) : FVal :=
  if f64Exponent w = 2047 then
    if f64Fraction w = 0 then .inf (f64Sign w) else .nan
  else if f64Exponent w = 0 then .fin (f64Sign w) (f64Fraction w) (-1074)
  else .fin (f64Sign w) (2 ^ 52 + f64Fraction w) ((f64Exponent w : Int) - 1075)

/-- `isNaN(f)`: true for every NaN encoding (00_scope.md R12). -/
def f64IsNaN (w : Word) : Bool := decide (f64Exponent w = 2047) && decide (f64Fraction w ≠ 0)

/-- A word from a sign and the 63 bits below it. -/
def f64Signed (neg : Bool) (bits : Nat) : Word :=
  BitVec.ofNat 64 ((if neg then 2 ^ 63 else 0) + bits)

/-- The encoding of an infinity. -/
def f64Inf (neg : Bool) : Word := f64Signed neg (2047 * 2 ^ 52)

/-- The encoding of a zero. -/
def f64Zero (neg : Bool) : Word := f64Signed neg 0

/-- The NaN the operations below answer; no command produces one (41_projection.md R146).
DESIGN CHOICE, safe (notes/assumptions/12.md). -/
def f64NaN : Word := 0x7FF8000000000000

/-- The exponent of the last place binary64 has for `m * 2^e`: 53 significant bits, and never below
that of the subnormals. -/
def f64Quantum (m : Nat) (e : Int) : Int := max (e + (Nat.log2 m : Int) - 52) (-1074)

/-- `m / 2^d` rounded to the nearest integer, ties to even. -/
def roundHalfEven (m d : Nat) : Nat :=
  let n := m / 2 ^ d
  let r := 2 * (m % 2 ^ d)
  if 2 ^ d < r ∨ (r = 2 ^ d ∧ n % 2 = 1) then n + 1 else n

/-- `m * 2^e` in units of `2^q`, rounded to nearest with ties to even. -/
def f64Scaled (m : Nat) (e q : Int) : Nat :=
  if q ≤ e then m * 2 ^ (e - q).toNat else roundHalfEven m (q - e).toNat

/-- The one rounding of an operation (00_scope.md R12, 41_projection.md R140): the encoding of
`(-1)^neg * m * 2^e` rounded to nearest, ties to even. The significand `n` counts units of `2^q`;
its hidden bit, and a carry out of the rounding, add into the exponent field. -/
def f64Round (neg : Bool) (m : Nat) (e : Int) : Word :=
  if m = 0 then f64Zero neg
  else
    let q := f64Quantum m e
    let bits := (q + 1074).toNat * 2 ^ 52 + f64Scaled m e q
    if 2047 * 2 ^ 52 ≤ bits then f64Inf neg else f64Signed neg bits

/-- `B(f)`: write a value as a register word (00_scope.md R12). -/
def f64Encode : FVal → Word
  | .nan => f64NaN
  | .inf s => f64Inf s
  | .fin s m e => f64Round s m e

/-- `m` with its sign. -/
def signedNat (neg : Bool) (m : Nat) : Int := if neg then -(m : Int) else (m : Int)

/-- The integer `±m * 2^(e - base)` for `base ≤ e`. -/
def alignedInt (neg : Bool) (m : Nat) (e base : Int) : Int :=
  signedNat neg m * 2 ^ (e - base).toNat

/-- The exact sum of two finite values, rounded once; an exact zero is `-0.0` only when both
operands are negative. -/
def f64AddFin (s1 : Bool) (m1 : Nat) (e1 : Int) (s2 : Bool) (m2 : Nat) (e2 : Int) : Word :=
  let base := min e1 e2
  let v := alignedInt s1 m1 e1 base + alignedInt s2 m2 e2 base
  if v = 0 then f64Zero (s1 && s2) else f64Round (decide (v < 0)) v.natAbs base

/-- `a + b` (00_scope.md R12). -/
def f64Add (a b : Word) : Word :=
  match f64Value a, f64Value b with
  | .nan, _ | _, .nan => f64NaN
  | .inf s, .inf t => if s = t then f64Inf s else f64NaN
  | .inf s, .fin _ _ _ => f64Inf s
  | .fin _ _ _, .inf t => f64Inf t
  | .fin s1 m1 e1, .fin s2 m2 e2 => f64AddFin s1 m1 e1 s2 m2 e2

/-- `-a`: the sign bit flipped. -/
def f64Neg (a : Word) : Word := a ^^^ (1#64 <<< 63)

/-- `a - b` (00_scope.md R12): `a + (-b)`. -/
def f64Sub (a b : Word) : Word := f64Add a (f64Neg b)

/-- `a * b` (00_scope.md R12). -/
def f64Mul (a b : Word) : Word :=
  match f64Value a, f64Value b with
  | .nan, _ | _, .nan => f64NaN
  | .inf s, .inf t => f64Inf (s ^^ t)
  | .inf s, .fin t m _ => if m = 0 then f64NaN else f64Inf (s ^^ t)
  | .fin s m _, .inf t => if m = 0 then f64NaN else f64Inf (s ^^ t)
  | .fin s1 m1 e1, .fin s2 m2 e2 => f64Round (s1 ^^ s2) (m1 * m2) (e1 + e2)

/-- An exact value lying in `[m, m+1)` units of `2^e`, rounded once: `sticky` says it is not `m`
itself. The half unit appended stands for whatever lies between, and decides no tie wrongly when
`m` has more than 54 bits. -/
def f64RoundSticky (neg : Bool) (m : Nat) (e : Int) (sticky : Bool) : Word :=
  f64Round neg (2 * m + sticky.toNat) (e - 1)

/-- The quotient of two finite values with a non-zero divisor, rounded once. -/
def f64DivFin (neg : Bool) (m1 : Nat) (e1 : Int) (m2 : Nat) (e2 : Int) : Word :=
  let k := Nat.log2 m2 + 56
  let n := m1 * 2 ^ k
  f64RoundSticky neg (n / m2) (e1 - e2 - k) (decide (n % m2 ≠ 0))

/-- `a / b` (00_scope.md R12). -/
def f64Div (a b : Word) : Word :=
  match f64Value a, f64Value b with
  | .nan, _ | _, .nan => f64NaN
  | .inf _, .inf _ => f64NaN
  | .inf s, .fin t _ _ => f64Inf (s ^^ t)
  | .fin s _ _, .inf t => f64Zero (s ^^ t)
  | .fin s1 m1 e1, .fin s2 m2 e2 =>
    if m2 = 0 then (if m1 = 0 then f64NaN else f64Inf (s1 ^^ s2))
    else f64DivFin (s1 ^^ s2) m1 e1 m2 e2

/-- The `k` low bits of the integer square root of `n` above the root `r` found so far. -/
def isqrtBits (n : Nat) : Nat → Nat → Nat
  | 0, r => r
  | k + 1, r => isqrtBits n k (if (r + 2 ^ k) * (r + 2 ^ k) ≤ n then r + 2 ^ k else r)

/-- The integer square root, `floor(sqrt n)`, most significant bit first. -/
def isqrt (n : Nat) : Nat := isqrtBits n (Nat.log2 n / 2 + 1) 0

/-- The square root of a positive finite value, rounded once: the significand is scaled to at least
110 more bits and to an even exponent first. -/
def f64SqrtFin (m : Nat) (e : Int) : Word :=
  let k : Nat := if e % 2 = 0 then 110 else 111
  let n := m * 2 ^ k
  let r := isqrt n
  f64RoundSticky false r ((e - k) / 2) (decide (r * r ≠ n))

/-- `sqrt(a)` (00_scope.md R12). -/
def f64Sqrt (a : Word) : Word :=
  match f64Value a with
  | .nan => f64NaN
  | .inf s => if s then f64NaN else f64Inf false
  | .fin s m e => if m = 0 then f64Zero s else if s then f64NaN else f64SqrtFin m e

/-- `a < b`, false when either is a NaN; zeros of both signs are equal (00_scope.md R12). -/
def f64Lt (a b : Word) : Bool :=
  match f64Value a, f64Value b with
  | .nan, _ | _, .nan => false
  | .inf s, .inf t => s && !t
  | .inf s, .fin _ _ _ => s
  | .fin _ _ _, .inf t => !t
  | .fin s1 m1 e1, .fin s2 m2 e2 =>
    decide (alignedInt s1 m1 e1 (min e1 e2) < alignedInt s2 m2 e2 (min e1 e2))

/-- `a >= 0`: true of `-0.0`, false of a NaN (00_scope.md R12). -/
def f64NonNeg (a : Word) : Bool := !f64IsNaN a && !f64Lt a (f64Zero false)

/-- The mathematical integer floor of `(-1)^neg * m * 2^e` (00_scope.md R12). -/
def floorFin (neg : Bool) (m : Nat) (e : Int) : Int :=
  if 0 ≤ e then signedNat neg m * 2 ^ e.toNat else signedNat neg m / 2 ^ (-e).toNat

/-- An integer converted to binary64 (45_neighbors.md R242). -/
def f64OfInt (v : Int) : Word := f64Round (decide (v < 0)) v.natAbs 0

/-- `clamp(x, lo, hi)` on binary64: one of its arguments unchanged (41_projection.md R143). -/
def f64Clamp (x lo hi : Word) : Word :=
  if f64Lt x lo then lo else if f64Lt hi x then hi else x

/-- `clamp(x, lo, hi)` on mathematical integers (41_projection.md R143). -/
def intClamp (x lo hi : Int) : Int := if x < lo then lo else if hi < x then hi else x

end Sys2Proof.Machine
end

