-- ==== Sys2Proof/Syntax.lean ====
section
/-!
DEFINITION. The command set as syntax: one constructor per row of spec/opcode_table.json
(30_encoding.md R93).
-/

namespace Sys2Proof

/-- `TSEL`: which lookup table LUT_READ reads (30_encoding.md R91). -/
inductive Table where
  | pos
  | ij
  deriving DecidableEq, Repr

/-- The 17 commands. `parent` carries the `LEVEL` field as the number it encodes, and `lutRead` the
table `TSEL` selects; no other command has a field (30_encoding.md R92). -/
inductive Instr where
  | lutRead (table : Table)
  | uvToSt
  | stToIj
  | fromFaceIj
  | fromFaceUv
  | fromLatLng
  | toFaceIj
  | isValid
  | face
  | level
  | parent (level : Nat)
  | advance
  | advanceWrap
  | next
  | prev
  | edgeNeighbors
  | fromFaceIjWrap
  deriving DecidableEq, Repr

end Sys2Proof
end

