-- ==== Sys2Proof/WellFormed.lean ====
section
/-!
DEFINITION. Which commands have an encoding (30_encoding.md R92).
-/

namespace Sys2Proof

/-- The `LEVEL` field is a 6-bit unsigned immediate, 0 to 63: 31 to 63 are legal encodings
(30_encoding.md R92). Every other field is in range by its type. -/
def Instr.wf : Instr → Bool
  | .parent l => decide (l < 64)
  | .lutRead _ | .uvToSt | .stToIj | .fromFaceIj | .fromFaceUv | .fromLatLng | .toFaceIj
  | .isValid | .face | .level | .advance | .advanceWrap | .next | .prev | .edgeNeighbors
  | .fromFaceIjWrap => true

end Sys2Proof
end

