-- ==== Sys2Proof/Decode.lean ====
section
/-!
DEFINITION. The decoder, total on any word and any bytes, and the encoder (30_encoding.md R90 to
R98, R102).
-/

namespace Sys2Proof

/-- Why a word is no command. The host sees one code for all of them, ILLEGAL_COMMAND
(60_exceptions.md R268); `notOneWord` is bytes that are not the eight lanes of a doubleword. -/
inductive DecodeError where
  | illegalOpcode
  | reservedBits
  | levelField
  | tableField
  | notOneWord
  deriving DecidableEq, Repr

/-- `OPCODE`, bits 7:0 (30_encoding.md R91). -/
def opcodeField (w : Word) : BitVec 8 := w.extractLsb' 0 8

/-- `LEVEL`, bits 13:8 (30_encoding.md R91). -/
def levelField (w : Word) : BitVec 6 := w.extractLsb' 8 6

/-- `TSEL`, bit 14 (30_encoding.md R91). -/
def tableField (w : Word) : BitVec 1 := w.extractLsb' 14 1

/-- `RSVD`, bits 63:15 (30_encoding.md R91). -/
def reservedField (w : Word) : BitVec 49 := w.extractLsb' 15 49

/-- The table a `TSEL` bit selects: 0 = POS_LUT, 1 = IJ_LUT (30_encoding.md R91). -/
def tableOfField (b : BitVec 1) : Table := if b = 0 then .pos else .ij

/-- The `TSEL` bit that selects a table. -/
def fieldOfTable : Table → Nat
  | .pos => 0
  | .ij => 1

/-- The command an opcode names, given the fields it may use (30_encoding.md R93). -/
def instrOfOpcode (op : Nat) (lvl : BitVec 6) (tsel : BitVec 1) : Option Instr :=
  match op with
  | 0x01 => some (.lutRead (tableOfField tsel))
  | 0x02 => some .uvToSt
  | 0x03 => some .stToIj
  | 0x04 => some .fromFaceIj
  | 0x05 => some .fromFaceUv
  | 0x06 => some .fromLatLng
  | 0x07 => some .toFaceIj
  | 0x08 => some .isValid
  | 0x09 => some .face
  | 0x0A => some .level
  | 0x0B => some (.parent lvl.toNat)
  | 0x0C => some .advance
  | 0x0D => some .advanceWrap
  | 0x0E => some .next
  | 0x0F => some .prev
  | 0x10 => some .edgeNeighbors
  | 0x11 => some .fromFaceIjWrap
  | _ => none

/-- `decode(w)` of 30_encoding.md R98, its tests in the rule's order. -/
def decode (w : Word) : Except DecodeError Instr :=
  match instrOfOpcode (opcodeField w).toNat (levelField w) (tableField w) with
  | none => .error .illegalOpcode
  | some i =>
    if reservedField w ≠ 0 then .error .reservedBits
    else if opcodeField w ≠ 0x0B ∧ levelField w ≠ 0 then .error .levelField
    else if opcodeField w ≠ 0x01 ∧ tableField w ≠ 0 then .error .tableField
    else .ok i

/-- The number the lanes spell, lane 0 first and least significant (20_memory.md R65). -/
def laneValue : List Byte → Nat
  | [] => 0
  | b :: bs => b.toNat + 256 * laneValue bs

/-- The doubleword eight byte lanes carry: lane `n` is bits `8n+7 .. 8n` (20_memory.md R65). -/
def wordOfLanes (bs : List Byte) : Option Word :=
  if bs.length = 8 then some (BitVec.ofNat 64 (laneValue bs)) else none

/-- The byte lanes of a word, lane 0 first (20_memory.md R65). -/
def lanesOfWord (w : Word) : List Byte :=
  (List.range 8).map fun n => w.extractLsb' (8 * n) 8

/-- The decoder on the bytes of one doubleword access; a command is always one word
(30_encoding.md R90, R99). -/
def decodeLanes (bs : List Byte) : Except DecodeError Instr :=
  match wordOfLanes bs with
  | none => .error .notOneWord
  | some w => decode w

/-- The opcode of a command (30_encoding.md R93). -/
def Instr.opcode : Instr → Nat
  | .lutRead _ => 0x01
  | .uvToSt => 0x02
  | .stToIj => 0x03
  | .fromFaceIj => 0x04
  | .fromFaceUv => 0x05
  | .fromLatLng => 0x06
  | .toFaceIj => 0x07
  | .isValid => 0x08
  | .face => 0x09
  | .level => 0x0A
  | .parent _ => 0x0B
  | .advance => 0x0C
  | .advanceWrap => 0x0D
  | .next => 0x0E
  | .prev => 0x0F
  | .edgeNeighbors => 0x10
  | .fromFaceIjWrap => 0x11

/-- The `LEVEL` field of a command: 0 where the opcode does not use it (30_encoding.md R92). -/
def Instr.levelImm : Instr → Nat
  | .parent l => l
  | .lutRead _ | .uvToSt | .stToIj | .fromFaceIj | .fromFaceUv | .fromLatLng | .toFaceIj
  | .isValid | .face | .level | .advance | .advanceWrap | .next | .prev | .edgeNeighbors
  | .fromFaceIjWrap => 0

/-- The `TSEL` field of a command: 0 where the opcode does not use it (30_encoding.md R92). -/
def Instr.tableImm : Instr → Nat
  | .lutRead t => fieldOfTable t
  | .parent _ | .uvToSt | .stToIj | .fromFaceIj | .fromFaceUv | .fromLatLng | .toFaceIj
  | .isValid | .face | .level | .advance | .advanceWrap | .next | .prev | .edgeNeighbors
  | .fromFaceIjWrap => 0

/-- The command word `RSVD = 0, TSEL, LEVEL, OPCODE` (30_encoding.md R91, R100, R102). -/
def encode (i : Instr) : Word :=
  BitVec.ofNat 64 (i.tableImm * 2 ^ 14 + i.levelImm * 2 ^ 8 + i.opcode)

/-- `match` of the command's row in spec/opcode_table.json (30_encoding.md R98). -/
def Instr.rowMatch (i : Instr) : Word := BitVec.ofNat 64 i.opcode

/-- `mask` of the command's row in spec/opcode_table.json (30_encoding.md R98). -/
def Instr.rowMask : Instr → Word
  | .lutRead _ => 0xFFFFFFFFFFFFBFFF
  | .parent _ => 0xFFFFFFFFFFFFC0FF
  | .uvToSt | .stToIj | .fromFaceIj | .fromFaceUv | .fromLatLng | .toFaceIj
  | .isValid | .face | .level | .advance | .advanceWrap | .next | .prev | .edgeNeighbors
  | .fromFaceIjWrap => 0xFFFFFFFFFFFFFFFF

/-- The word of a table row's bits: `nbits` of `w`, every bit above them 0. -/
def tableWord (nbits w : Nat) : Word := BitVec.ofNat 64 (w % 2 ^ nbits)

/-- What the decoder reads from a row of spec/opcode_table.json: its word laid out in the byte lanes
of the host port (20_memory.md R65) and given to the decoder. -/
def decodeTableWord (nbits w : Nat) : Option Instr :=
  match decodeLanes (lanesOfWord (tableWord nbits w)) with
  | .ok i => some i
  | .error _ => none

end Sys2Proof
end

