-- ==== Sys2Proof/Config.lean ====
section
/-!
DEFINITION. The fixed scheme parameters (00_scope.md R6, R7) and the open parameter `Collab`
(00_scope.md R9, 20_memory.md R78).
-/

namespace Sys2Proof.Config

/-- `MAX_LEVEL` (00_scope.md R6). -/
def maxLevel : Nat := 30

/-- `MAX_SIZE`, leaf cells along one face edge (00_scope.md R6). -/
def maxSize : Nat := 2 ^ 30

/-- `NUM_FACES` (00_scope.md R6). -/
def numFaces : Nat := 6

/-- `POS_BITS`, the bits below the face field (00_scope.md R6). -/
def posBits : Nat := 61

/-- Entries of one lookup table, `4 * 4^LOOKUP_BITS` (00_scope.md R7, 40_lut.md R120). -/
def lutSize : Nat := 1024

/-- Chunks the encoder and the decoder walk (00_scope.md R7). -/
def numChunks : Nat := 8

/-- A point as the collaborator port carries it: three binary64 words (20_memory.md R76). -/
structure Point where
  x : Word
  y : Word
  z : Word
  deriving DecidableEq, Repr, Inhabited

/-- A collaborator's `(face, u, v)`; the face result is three bits wide (10_state.md R45). -/
structure FaceUV where
  face : BitVec 3
  u : Word
  v : Word
  deriving DecidableEq, Repr, Inhabited

/-- The triple of collaborator functions (20_memory.md R78). -/
structure Collab where
  ptFromLatLng : Word → Word → Point
  ptFromFaceUV : BitVec 3 → Word → Word → Point
  faceUVFromPoint : Point → FaceUV
  deriving Inhabited

/-- The open parameter `Collab`: what a collaborator answers is not the block's to decide
(20_memory.md R78, 93_implementation_defined.md U13). Opaque, so that nothing can be proved of
its values (notes/assumptions/8.md). -/
opaque collab : Collab

end Sys2Proof.Config
end

