-- ==== Sys2Proof/Machine/Lut.lean ====
section
/-!
DEFINITION. The orientation lookup tables (40_lut.md): the seed tables, the entries without
recursion, the tables initialisation leaves, and the construction procedure itself.
-/

namespace Sys2Proof.Machine

/-- One lookup table: 1024 entries of 10 bits, by index (40_lut.md R120). -/
abbrev Lut := List (BitVec 10)

/-- The table has its 1024 entries; every operation keeps it. -/
abbrev lutWf (t : Lut) : Prop := t.length = Config.lutSize

/-- `SWAP_MASK`, bit 0 of an orientation (10_state.md R26). -/
def swapMask : Nat := 1

/-- `INVERT_MASK`, bit 1 of an orientation (10_state.md R26). -/
def invertMask : Nat := 2

/-- `POS_TO_IJ[o][q]`, the quadrant address `(ibit << 1) | jbit` (40_lut.md R121;
notes/assumptions/14.md). -/
def posToIj (o q : Nat) : Nat :=
  match o, q with
  | 0, 0 => 0 | 0, 1 => 1 | 0, 2 => 3 | 0, 3 => 2
  | 1, 0 => 0 | 1, 1 => 2 | 1, 2 => 3 | 1, 3 => 1
  | 2, 0 => 3 | 2, 1 => 2 | 2, 2 => 0 | 2, 3 => 1
  | 3, 0 => 3 | 3, 1 => 1 | 3, 2 => 0 | 3, 3 => 2
  | _, _ => 0

/-- `POS_TO_ORIENTATION[q]`, applied by XOR (40_lut.md R122; notes/assumptions/14.md). -/
def posToOrientation (q : Nat) : Nat :=
  match q with
  | 0 => 1
  | 3 => 3
  | _ => 0

/-- `IJ_TO_POS[o][r]`, the inverse permutation of `POS_TO_IJ[o]` (40_lut.md R127). -/
def ijToPos (o r : Nat) : Nat :=
  match o, r with
  | 0, 0 => 0 | 0, 1 => 1 | 0, 2 => 3 | 0, 3 => 2
  | 1, 0 => 0 | 1, 1 => 3 | 1, 2 => 1 | 1, 3 => 2
  | 2, 0 => 2 | 2, 1 => 3 | 2, 2 => 1 | 2, 3 => 0
  | 3, 0 => 2 | 3, 1 => 1 | 3, 2 => 3 | 3, 3 => 0
  | _, _ => 0

/-- The loop of `PosEntry` over its last `t` bits (40_lut.md R125). -/
def posEntryLoop (i4 j4 : Nat) : Nat → Nat → Nat → Nat
  | 0, pos, o => (pos <<< 2) ||| o
  | t + 1, pos, o =>
    let r := (((i4 >>> t) &&& 1) <<< 1) ||| ((j4 >>> t) &&& 1)
    let q := ijToPos o r
    posEntryLoop i4 j4 t (4 * pos + q) (o ^^^ posToOrientation q)

/-- `PosEntry(i4, j4, o)` (40_lut.md R125). -/
def posEntry (i4 j4 o : Nat) : Nat := posEntryLoop i4 j4 4 0 o

/-- The loop of `IjEntry` over its last `t` digits (40_lut.md R125). -/
def ijEntryLoop (pos8 : Nat) : Nat → Nat → Nat → Nat → Nat
  | 0, i, j, o => (((i <<< 4) ||| j) <<< 2) ||| o
  | t + 1, i, j, o =>
    let q := (pos8 >>> (2 * t)) &&& 3
    let r := posToIj o q
    ijEntryLoop pos8 t (2 * i + (r >>> 1)) (2 * j + (r &&& 1)) (o ^^^ posToOrientation q)

/-- `IjEntry(pos8, o)` (40_lut.md R125). -/
def ijEntry (pos8 o : Nat) : Nat := ijEntryLoop pos8 4 0 0 o

/-- The contents of `POS_LUT` once built: key `(i4 << 6) | (j4 << 2) | o` (40_lut.md R125). -/
def builtPosLut : Lut :=
  (List.range Config.lutSize).map fun k =>
    BitVec.ofNat 10 (posEntry (k >>> 6) ((k >>> 2) &&& 15) (k &&& 3))

/-- The contents of `IJ_LUT` once built: key `(pos8 << 2) | o` (40_lut.md R125). -/
def builtIjLut : Lut :=
  (List.range Config.lutSize).map fun k => BitVec.ofNat 10 (ijEntry (k >>> 2) (k &&& 3))

/-- A table before it is built. Its contents are unspecified and cannot be observed; the model has
zeros (10_state.md R40, 93_implementation_defined.md U10; notes/assumptions/6.md). -/
def unbuiltLut : Lut := List.replicate Config.lutSize 0

/-- `LutRead(T, k)` (00_scope.md R13). -/
def lutRead (t : Lut) (k : Nat) : Nat := (t.getD k 0).toNat

/-- `LutWrite(T, k, v)` (00_scope.md R13). -/
def lutWrite (t : Lut) (k v : Nat) : Lut := t.set k (BitVec.ofNat 10 v)

/-- The pair of writes one leaf of the construction makes (40_lut.md R123). -/
structure LeafWrite where
  posKey : Nat
  posValue : Nat
  ijKey : Nat
  ijValue : Nat
  deriving DecidableEq, Repr

/-- `InitCell`, its writes in order; the first argument is `LOOKUP_BITS - lvl` (40_lut.md R123). -/
def initCell : Nat → Nat → Nat → Nat → Nat → Nat → List LeafWrite
  | 0, i, j, origO, pos, o =>
    let ij := (i <<< 4) ||| j
    [⟨(ij <<< 2) ||| origO, (pos <<< 2) ||| o, (pos <<< 2) ||| origO, (ij <<< 2) ||| o⟩]
  | n + 1, i, j, origO, pos, o =>
    [0, 1, 2, 3].flatMap fun q =>
      let r := posToIj o q
      initCell n (2 * i + (r >>> 1)) (2 * j + (r &&& 1)) origO (4 * pos + q)
        (o ^^^ posToOrientation q)

/-- The writes of `BuildLUT`, seed by seed (40_lut.md R123). -/
def buildWrites : List LeafWrite :=
  [0, swapMask, invertMask, swapMask ||| invertMask].flatMap fun seed =>
    initCell 4 0 0 seed 0 seed

/-- `POS_LUT` after `BuildLUT` has run over its old contents (40_lut.md R123). -/
def runBuildPos (t : Lut) : Lut := buildWrites.foldl (fun t w => lutWrite t w.posKey w.posValue) t

/-- `IJ_LUT` after `BuildLUT` has run over its old contents (40_lut.md R123). -/
def runBuildIj (t : Lut) : Lut := buildWrites.foldl (fun t w => lutWrite t w.ijKey w.ijValue) t

end Sys2Proof.Machine
end

