-- ==== Sys2Proof/Machine/State.lean ====
section
/-!
DEFINITION. The machine's state as plain data, the ways a step can stop, and the state after reset.
-/

namespace Sys2Proof.Machine

/-- `init_state` (10_state.md R39). -/
inductive InitState where
  | building
  | ready
  | failed
  deriving DecidableEq, Repr

/-- The nine outcomes of `STATUS.ERRCODE`; codes 9 to 15 are never produced (60_exceptions.md
R262). -/
inductive ErrCode where
  | noError
  | illegalCommand
  | notReady
  | invalidFace
  | malformedCellId
  | invalidLevel
  | invalidOperand
  | unsupportedProjection
  | projectionFault
  deriving DecidableEq, Repr

/-- What `STATUS.ERR_OPERAND` can name: an operand register, or `CMDW`, the command word or none
(00_scope.md R13, 10_state.md R36). -/
inductive ErrOperand where
  | op0
  | op1
  | op2
  | cmdw
  deriving DecidableEq, Repr

/-- A request on the collaborator port, one constructor per `c_kind` (20_memory.md R76). -/
inductive CollabReq where
  | ptFromLatLng (lat lng : Word)
  | ptFromFaceUV (face : BitVec 3) (u v : Word)
  | faceUVFromPt (p : Config.Point)
  deriving DecidableEq, Repr

/-- A response on the collaborator port: `c_rface`, `c_ra`, `c_rb`, `c_rc` (10_state.md R45). -/
structure CollabRsp where
  face : BitVec 3
  a : Word
  b : Word
  c : Word
  deriving DecidableEq, Repr

/-- A request whose answer is known. -/
structure CollabFact where
  request : CollabReq
  response : CollabRsp
  deriving DecidableEq, Repr

/-- One request on the host port: `h_we`, `h_addr`, `h_size`, `h_wdata` (10_state.md R43). -/
structure Access where
  write : Bool
  addr : BitVec 7
  size : BitVec 2
  wdata : Word
  deriving DecidableEq, Repr

/-- What the block answers an access with `h_ack`: read data, the acknowledgement of a write, or a
bus error (10_state.md R43, 20_memory.md R66). -/
inductive HostRsp where
  | data (rdata : Word)
  | written
  | busError
  deriving DecidableEq, Repr

/-- The host port: at most one request is outstanding (10_state.md R43). `answered` holds the
response until the next request is raised (notes/assumptions/13.md). -/
inductive HostPort where
  | idle
  | pending (a : Access)
  | answered (r : HostRsp)
  deriving DecidableEq, Repr

/-- The in-flight record, held while `BUSY = 1` (10_state.md R41): the accepted word, the operand
copies, whether `init_state` was READY at acceptance (60_exceptions.md R269;
notes/assumptions/5.md), the outstanding collaborator request, and the responses taken so far,
oldest first, which fix every intermediate value (notes/assumptions/11.md). -/
structure InFlight where
  word : Word
  op0 : Word
  op1 : Word
  op2 : Word
  ready : Bool
  request : Option CollabReq
  responses : List CollabRsp
  deriving DecidableEq, Repr

/-- The moves of the environment and of the block, in the order they come (70_reset_and_hazards.md
R305; notes/assumptions/1.md).
`reset` is a reset edge sampling the strap (R291, 10_state.md R46); `initDone` is R305's `InitDone`;
`hostReq` raises a host request and `hostAck` performs and answers it, together R305's `HostRead` and
`HostWrite`; `collabReq` and `collabRsp` are one exchange of the collaborator port (20_memory.md R77);
`complete` is R305's `Complete`; `pollBusy` and `pollReady` are the host's `WAIT` and `WAITREADY`
(30_encoding.md R101; notes/assumptions/4.md). -/
inductive Event where
  | reset (strap : BitVec 2)
  | initDone
  | hostReq (a : Access)
  | hostAck
  | collabReq
  | collabRsp
  | complete
  | pollBusy
  | pollReady
  deriving DecidableEq, Repr

/-- The machine (10_state.md R30). READY, BUSY, ERR and INIT_FAIL of `STATUS` have their one home in
`initState`, `inflight` and `errCode` (R36). The last four fields are the model's own
(INVENTORY.md): the environment's remaining moves, the known part of `Collab`
(70_reset_and_hazards.md R305), whether the collaborator leaves a request unanswered for good when
no response is scheduled (R300; notes/assumptions/22.md), and the requests the latest command has put
on the collaborator port. -/
structure State where
  cmd : Word
  op0 : Word
  op1 : Word
  op2 : Word
  res0 : Word
  res1 : Word
  res2 : Word
  res3 : Word
  overrun : Bool
  errCode : ErrCode
  errOperand : ErrOperand
  lastOpcode : BitVec 8
  resultCount : BitVec 3
  initState : InitState
  projMode : BitVec 2
  posLut : Lut
  ijLut : Lut
  inflight : Option InFlight
  hostPort : HostPort
  agenda : List Event
  collabTable : List CollabFact
  collabStalls : Bool
  collabTrace : List CollabReq
  deriving DecidableEq, Repr

/-- Why the machine stops. -/
inductive Fault where
  /-- Raised by every meaning when asked to complete a command while none is in flight: `Complete` is
  enabled only when `BUSY = 1` (70_reset_and_hazards.md R305). `step` never asks so. Safe: the model
  stops where the block has no behaviour (notes/assumptions/18.md). -/
  | noCommandInFlight
  deriving DecidableEq, Repr

/-- Why an instruction is refused. -/
inductive Refusal where
  /-- Raised by `exec` alone, for an instruction that has no meaning yet; no arm of the finished model
  raises it. Safe. -/
  | notModelled (mnemonic : String)
  deriving DecidableEq, Repr

/-- The state a reset edge leaves, for the strap value it samples (70_reset_and_hazards.md R291). The
tables are unspecified there and cannot be observed before they are built
(notes/assumptions/6.md). The fields that are not the block's are the caller's. -/
def State.afterReset (strap : BitVec 2) (agenda : List Event) (collabTable : List CollabFact)
    (collabStalls : Bool) : State where
  cmd := 0
  op0 := 0
  op1 := 0
  op2 := 0
  res0 := 0
  res1 := 0
  res2 := 0
  res3 := 0
  overrun := false
  errCode := .noError
  errOperand := .cmdw
  lastOpcode := 0
  resultCount := 0
  initState := .building
  projMode := strap
  posLut := unbuiltLut
  ijLut := unbuiltLut
  inflight := none
  hostPort := .idle
  agenda := agenda
  collabTable := collabTable
  collabStalls := collabStalls
  collabTrace := []

/-- The machine right after reset (70_reset_and_hazards.md R291), the strap sampled as 0, QUADRATIC,
as R294 requires of the host (DESIGN CHOICE, notes/assumptions/7.md), nothing scheduled, and nothing
known of the collaborator but that it answers, as R294 requires too (notes/assumptions/22.md). -/
def State.reset : State := State.afterReset 0 [] [] false

end Sys2Proof.Machine
end

