-- ==== Sys2Proof/Machine/Flags.lean ====
section
/-!
DEFINITION. The `STATUS` register as the host reads it (10_state.md R36) and what a completion writes
(60_exceptions.md R261).
-/

namespace Sys2Proof.Machine

/-- The code of an outcome (60_exceptions.md R262). -/
def ErrCode.bits : ErrCode → BitVec 4
  | .noError => 0
  | .illegalCommand => 1
  | .notReady => 2
  | .invalidFace => 3
  | .malformedCellId => 4
  | .invalidLevel => 5
  | .invalidOperand => 6
  | .unsupportedProjection => 7
  | .projectionFault => 8

/-- The code of `ERR_OPERAND` (10_state.md R36). -/
def ErrOperand.bits : ErrOperand → BitVec 4
  | .op0 => 0
  | .op1 => 1
  | .op2 => 2
  | .cmdw => 0xF

/-- `STATUS.READY`: 1 iff `init_state = READY` (10_state.md R36). -/
def State.isReady (s : State) : Bool := decide (s.initState = .ready)

/-- `STATUS.BUSY`: 1 from a command's acceptance to its completion (10_state.md R36, R41). -/
def State.isBusy (s : State) : Bool := s.inflight.isSome

/-- `STATUS.ERR`: 1 iff `ERRCODE != 0` (10_state.md R36). -/
def State.isErr (s : State) : Bool := decide (s.errCode ≠ .noError)

/-- `STATUS.INIT_FAIL`: 1 iff `init_state = FAILED` (10_state.md R36). -/
def State.isInitFail (s : State) : Bool := decide (s.initState = .failed)

/-- `STATUS`, its fields from bit 63 down (10_state.md R36). -/
def State.status (s : State) : Word :=
  0#37 ++ s.resultCount ++ s.lastOpcode ++ s.errOperand.bits ++ s.errCode.bits ++ 0#3
    ++ BitVec.ofBool s.overrun ++ BitVec.ofBool s.isInitFail ++ BitVec.ofBool s.isErr
    ++ BitVec.ofBool s.isBusy ++ BitVec.ofBool s.isReady

/-- How a command ends: with one result, with four, or with an error naming the operand at fault
(00_scope.md R13, 30_encoding.md R94). -/
inductive CmdResult where
  | one (r0 : Word)
  | four (r0 r1 r2 r3 : Word)
  | error (e : ErrCode) (a : ErrOperand)
  deriving DecidableEq, Repr

/-- `ERRCODE` of an outcome (60_exceptions.md R261). -/
def CmdResult.errCode : CmdResult → ErrCode
  | .one _ | .four _ _ _ _ => .noError
  | .error e _ => e

/-- `ERR_OPERAND` of an outcome (60_exceptions.md R261). -/
def CmdResult.errOperand : CmdResult → ErrOperand
  | .one _ | .four _ _ _ _ => .cmdw
  | .error _ a => a

/-- `RESULT_COUNT` of an outcome (60_exceptions.md R261). -/
def CmdResult.count : CmdResult → BitVec 3
  | .one _ => 1
  | .four _ _ _ _ => 4
  | .error _ _ => 0

/-- What result register `n` holds after an outcome, `old` being what it held before: it is written on
success and only below the result count (60_exceptions.md R261). -/
def CmdResult.register (r : CmdResult) (n : Nat) (old : Word) : Word :=
  match r, n with
  | .one r0, 0 => r0
  | .four r0 _ _ _, 0 => r0
  | .four _ r1 _ _, 1 => r1
  | .four _ _ r2 _, 2 => r2
  | .four _ _ _ r3, 3 => r3
  | _, _ => old

/-- What a completion writes, in one step: the outcome fields, the results on success alone, and
`BUSY <- 0` with the in-flight record discarded (60_exceptions.md R261, 10_state.md R41). Raising an
error is one of its outcomes (60_exceptions.md R273, there is no other trap entry). -/
def State.applyResult (r : CmdResult) (s : State) : State :=
  { s with
    res0 := r.register 0 s.res0, res1 := r.register 1 s.res1
    res2 := r.register 2 s.res2, res3 := r.register 3 s.res3
    errCode := r.errCode, errOperand := r.errOperand, resultCount := r.count, inflight := none }

end Sys2Proof.Machine
end

