-- ==== Sys2Proof/Machine/Ops.lean ====
section
/-!
DEFINITION. The shared operations: a command as a program of collaborator requests, its completion,
acceptance, initialisation, the register window and the two ports.
-/

namespace Sys2Proof.Machine

/-! ### Commands as programs -/

/-- A command on fixed operands: it ends, or asks the collaborator and goes on with the response
(00_scope.md R13 `Collab.<fn>(args)`, 20_memory.md R77). -/
inductive Prog where
  | done (r : CmdResult)
  | ask (q : CollabReq) (k : CollabRsp → Prog)

/-- `raise E(a)` (00_scope.md R13). -/
def raise (e : ErrCode) (a : ErrOperand) : Prog := .done (.error e a)

/-- `return (RES0 = r0)` (00_scope.md R13). -/
def return1 (r0 : Word) : Prog := .done (.one r0)

/-- The program after the responses taken so far (20_memory.md R77: each request comes after the
previous response). -/
def Prog.resume : Prog → List CollabRsp → Prog
  | p, [] => p
  | .done r, _ :: _ => .done r
  | .ask _ k, r :: rs => (k r).resume rs

/-- The program run to its end, `ans` supplying every response (70_reset_and_hazards.md R305). -/
def Prog.run (ans : CollabReq → CollabRsp) : Prog → CmdResult
  | .done r => r
  | .ask q k => (k (ans q)).run ans

/-- The requests the program makes when `ans` answers, in order (20_memory.md R77). -/
def Prog.requests (ans : CollabReq → CollabRsp) : Prog → List CollabReq
  | .done _ => []
  | .ask q k => q :: (k (ans q)).requests ans

/-- Whether a program goes on only with a response of the collaborator. -/
def Prog.asks : Prog → Bool
  | .done _ => false
  | .ask _ _ => true

/-! ### The collaborator -/

/-- `c_kind` (10_state.md R45). -/
def CollabReq.kind : CollabReq → BitVec 2
  | .ptFromLatLng _ _ => 0
  | .ptFromFaceUV _ _ _ => 1
  | .faceUVFromPt _ => 2

/-- `c_face`: PT_FROM_FACEUV only, 0 otherwise (10_state.md R45). -/
def CollabReq.portFace : CollabReq → BitVec 3
  | .ptFromFaceUV f _ _ => f
  | .ptFromLatLng _ _ | .faceUVFromPt _ => 0

/-- `c_a`, `c_b`, `c_c`; unused ones are 0 (10_state.md R45, 20_memory.md R76). -/
def CollabReq.portArgs : CollabReq → Word × Word × Word
  | .ptFromLatLng lat lng => (lat, lng, 0)
  | .ptFromFaceUV _ u v => (u, v, 0)
  | .faceUVFromPt p => (p.x, p.y, p.z)

/-- The response fields a collaborator drives (20_memory.md R76). The fields a kind does not use are
read by nothing; they are 0 here (notes/assumptions/9.md). -/
def collabRespond (c : Config.Collab) : CollabReq → CollabRsp
  | .ptFromLatLng lat lng => let p := c.ptFromLatLng lat lng; ⟨0, p.x, p.y, p.z⟩
  | .ptFromFaceUV f u v => let p := c.ptFromFaceUV f u v; ⟨0, p.x, p.y, p.z⟩
  | .faceUVFromPt p => let r := c.faceUVFromPoint p; ⟨r.face, r.u, r.v, 0⟩

/-- The point a response carries: `c_ra, c_rb, c_rc` (20_memory.md R76). -/
def CollabRsp.point (r : CollabRsp) : Config.Point := ⟨r.a, r.b, r.c⟩

/-- What the collaborator answers: a function of the request alone (20_memory.md R78). The known
part of `Collab` comes first, the open parameter answers the rest (notes/assumptions/8.md). -/
def State.collabAnswer (s : State) (q : CollabReq) : CollabRsp :=
  match s.collabTable.find? (fun e => decide (e.request = q)) with
  | some e => e.response
  | none => collabRespond Config.collab q

/-! ### Acceptance and completion -/

/-- Acceptance of a command word (70_reset_and_hazards.md R295). The port trace of the model starts
anew. -/
def State.accept (w : Word) (s : State) : State :=
  { s with
    cmd := w
    lastOpcode := opcodeField w
    inflight := some
      { word := w, op0 := s.op0, op1 := s.op1, op2 := s.op2, ready := s.isReady
        request := none, responses := [] }
    collabTrace := [] }

/-- NOT_READY comes before everything else (60_exceptions.md R269, R272): a command accepted while
`init_state` was not READY does nothing but report it. -/
def InFlight.gate (f : InFlight) (p : Prog) : Prog :=
  if f.ready then p else raise .notReady .cmdw

/-- Completion of the command in flight: its program goes on from the responses taken, the
collaborator supplying every later one, and its outcome is written (70_reset_and_hazards.md R296,
R305; 60_exceptions.md R261). A request already outstanding is on the trace already. -/
def State.finish (f : InFlight) (p : Prog) (s : State) : State :=
  let rest := p.resume f.responses
  let asked := (rest.requests s.collabAnswer).drop (if f.request.isSome then 1 else 0)
  { s with collabTrace := s.collabTrace ++ asked }.applyResult (rest.run s.collabAnswer)

/-- The shape of every meaning: complete the command in flight by the program its rule gives on the
latched operands. `Complete` is enabled only when `BUSY = 1` (70_reset_and_hazards.md R305). -/
def complete (p : InFlight → Prog) (s : State) : Host.Outcome State Fault Refusal :=
  match s.inflight with
  | none => .fault .noCommandInFlight
  | some f => .next (s.finish f (f.gate (p f)))

/-- The program of a word that decodes to no command (60_exceptions.md R268). -/
def illegalProg : Prog := raise .illegalCommand .cmdw

/-! ### Reset and initialisation -/

/-- A reset edge: every state of the block takes its reset value, whatever it was doing
(70_reset_and_hazards.md R291, R303). What the environment does next and what the collaborator
answers are not the block's (notes/assumptions/21.md). -/
def State.resetTo (strap : BitVec 2) (s : State) : State :=
  State.afterReset strap s.agenda s.collabTable s.collabStalls

/-- The READY step: both tables are built (70_reset_and_hazards.md R292, 40_lut.md R125). -/
def State.buildTables (s : State) : State :=
  { s with posLut := builtPosLut, ijLut := builtIjLut, initState := .ready }

/-- `InitDone`, enabled while BUILDING: READY with the tables built, or FAILED with
UNSUPPORTED_PROJECTION when the sampled strap is not 0 (70_reset_and_hazards.md R292, R293, R305). -/
def State.initDone (s : State) : State :=
  match s.initState with
  | .building =>
    if s.projMode = 0 then s.buildTables
    else { s with
      initState := .failed, errCode := .unsupportedProjection, errOperand := .cmdw }
  | .ready | .failed => s

/-! ### The register window -/

/-- The register at a doubleword offset, if it can be read (20_memory.md R62, R66). -/
def State.readReg (off : Nat) (s : State) : Option Word :=
  match off with
  | 0x00 => some s.cmd
  | 0x08 => some s.status
  | 0x10 => some s.op0
  | 0x18 => some s.op1
  | 0x20 => some s.op2
  | 0x30 => some s.res0
  | 0x38 => some s.res1
  | 0x40 => some s.res2
  | 0x48 => some s.res3
  | _ => none

/-- A write of `CMD`: accepted while `BUSY = 0`, else dropped with OVERRUN set (10_state.md R35, R37;
70_reset_and_hazards.md R295, R299). -/
def State.writeCmd (v : Word) (s : State) : State :=
  if s.isBusy then { s with overrun := true } else s.accept v

/-- A write of `STATUS`: bit 4 clears OVERRUN, nothing else changes (10_state.md R37). -/
def State.writeStatus (v : Word) (s : State) : State :=
  if v.getLsbD 4 then { s with overrun := false } else s

/-- A write of the register at a doubleword offset, if it can be written (20_memory.md R62, R66,
R67). -/
def State.writeReg (off : Nat) (v : Word) (s : State) : Option State :=
  match off with
  | 0x00 => some (s.writeCmd v)
  | 0x08 => some (s.writeStatus v)
  | 0x10 => some { s with op0 := v }
  | 0x18 => some { s with op1 := v }
  | 0x20 => some { s with op2 := v }
  | _ => none

/-- The only legal access is a full doubleword, aligned (20_memory.md R64). -/
def Access.legal (a : Access) : Bool := decide (a.size = 3) && decide (a.addr.toNat % 8 = 0)

/-- One host access performed: `HostRead` or `HostWrite` (70_reset_and_hazards.md R305). A bus error
changes nothing (20_memory.md R64, R66). -/
def State.perform (a : Access) (s : State) : State × HostRsp :=
  if a.legal then
    if a.write then
      match s.writeReg a.addr.toNat a.wdata with
      | some t => (t, .written)
      | none => (s, .busError)
    else
      match s.readReg a.addr.toNat with
      | some v => (s, .data v)
      | none => (s, .busError)
  else (s, .busError)

/-- `h_err` of a response (10_state.md R43). -/
def HostRsp.err : HostRsp → Bool
  | .busError => true
  | .data _ | .written => false

/-- `h_rdata` of a response: the register, or 0 with a bus error (20_memory.md R64, R66); the spec
gives a write's acknowledgement none (notes/assumptions/13.md). -/
def HostRsp.rdata : HostRsp → Option Word
  | .data v => some v
  | .busError => some 0
  | .written => none

/-! ### The ports -/

/-- The host raises a request; enabled when none is outstanding (10_state.md R43). -/
def State.raiseHost (a : Access) (s : State) : State :=
  match s.hostPort with
  | .pending _ => s
  | .idle | .answered _ => { s with hostPort := .pending a }

/-- An access performed and answered (10_state.md R43, 20_memory.md R69). -/
def State.serve (a : Access) (s : State) : State :=
  let r := s.perform a
  { r.1 with hostPort := .answered r.2 }

/-- The block answers the outstanding request; enabled when there is one (10_state.md R43). -/
def State.answerHost (s : State) : State :=
  match s.hostPort with
  | .pending a => s.serve a
  | .idle | .answered _ => s

/-- The command in flight, whose program is `p`, puts its next request on the collaborator port;
enabled when none is outstanding and the program asks (20_memory.md R77). -/
def State.raiseCollab (p : InFlight → Prog) (s : State) : State :=
  match s.inflight with
  | none => s
  | some f =>
    match f.request, (f.gate (p f)).resume f.responses with
    | none, .ask q _ =>
      { s with
        inflight := some { f with request := some q }
        collabTrace := s.collabTrace ++ [q] }
    | none, .done _ | some _, _ => s

/-- `c_rsp`: the outstanding request is answered; with none outstanding it is ignored (20_memory.md
R77). -/
def State.takeRsp (s : State) : State :=
  match s.inflight with
  | none => s
  | some f =>
    match f.request with
    | none => s
    | some q =>
      let taken : InFlight :=
        { f with request := none, responses := f.responses ++ [s.collabAnswer q] }
      { s with inflight := some taken }

/-- `RD STATUS` (30_encoding.md R100). -/
def statusRead : Access := { write := false, addr := 0x08, size := 3, wdata := 0 }

/-- The polls wait behind a request of the host that is still outstanding (10_state.md R43). -/
def State.hostWaiting (s : State) : Bool :=
  match s.hostPort with
  | .pending _ => true
  | .idle | .answered _ => false

end Sys2Proof.Machine
end

