-- ==== Sys2Proof/Machine/Operands.lean ====
section
/-!
DEFINITION. Operand decoding and its checks (30_encoding.md R95, 44_traversal.md R200): each check
raises its error or hands the operand's value to the rest of the command.
-/

namespace Sys2Proof.Machine

/-- `id[63:61]`, the face field (10_state.md R20). -/
def faceField (x : Word) : Nat := (x.extractLsb' 61 3).toNat

/-- `id[60:0]`, position and marker (10_state.md R20). -/
def lowField (x : Word) : Nat := (x.extractLsb' 0 61).toNat

/-- `ctz` of a number of at most `n` bits (00_scope.md R10); `n` for 0. -/
def ctzBits : Nat → Nat → Nat
  | 0, _ => 0
  | n + 1, x => if x % 2 = 1 then 0 else ctzBits n (x / 2) + 1

/-- `ctz(id[60:0])`, the marker's index (10_state.md R21). -/
def markerIndex (x : Word) : Nat := ctzBits Config.posBits (lowField x)

/-- `lsb(id)`, the marker's value (10_state.md R21). -/
def lsb (x : Word) : Nat := 2 ^ markerIndex x

/-- `level(id)` of a valid id (10_state.md R22, 44_traversal.md R201). -/
def levelOf (x : Word) : Nat := 30 - markerIndex x / 2

/-- `valid(id)` (10_state.md R22). -/
def validId (x : Word) : Bool :=
  decide (faceField x ≤ 5) && decide (lowField x ≠ 0) && decide (markerIndex x % 2 = 0)

/-- `CheckId(x, n)`, the face before the marker, giving the level (44_traversal.md R200). -/
def checkId (x : Word) (n : ErrOperand) (k : Nat → Prog) : Prog :=
  if 5 < faceField x then raise .invalidFace n
  else if lowField x = 0 ∨ markerIndex x % 2 = 1 then raise .malformedCellId n
  else k (levelOf x)

/-- A `face` operand: an unsigned value, legal when at most 5 (30_encoding.md R95). -/
def checkFace (x : Word) (n : ErrOperand) (k : Nat → Prog) : Prog :=
  if 5 < x.toNat then raise .invalidFace n else k x.toNat

/-- An unsigned operand that must lie below a bound (60_exceptions.md R267). -/
def checkBelow (bound : Nat) (x : Word) (n : ErrOperand) (k : Nat → Prog) : Prog :=
  if bound ≤ x.toNat then raise .invalidOperand n else k x.toNat

/-- A binary64 operand: every NaN encoding is an error (41_projection.md R146). -/
def checkF64 (x : Word) (n : ErrOperand) (k : Word → Prog) : Prog :=
  if f64IsNaN x then raise .invalidOperand n else k x

end Sys2Proof.Machine
end

