-- ==== Sys2Proof/Machine/Decoder.lean ====
section
/-!
DEFINITION. The decoder and its command (43_decoder.md).
-/

namespace Sys2Proof.Machine

/-- A grid address with the curve's orientation there (10_state.md R26, R27). -/
structure GridAddress where
  face : Nat
  i : Nat
  j : Nat
  orientation : Nat
  deriving DecidableEq, Repr

/-- `PARITY_MASK`, bits 4, 8, ..., 60 (43_decoder.md R183). -/
def parityMask : Nat := 0x1111111111111110

/-- The slice of the position that chunk `k` decodes: four bits at the top, eight below
(43_decoder.md R180, R181). -/
def positionSlice (id : Nat) (k : Nat) : Nat :=
  if k = 7 then (id >>> 57) &&& 0xF else (id >>> (8 * k + 1)) &&& 0xFF

/-- The decoder's loop over its last `k` chunks, most significant first (43_decoder.md R180): `i`,
`j` and the orientation. -/
def decodeChunks (ijLut : Lut) (id : Nat) : Nat → Nat → Nat → Nat → Nat × Nat × Nat
  | 0, i, j, o => (i, j, o)
  | k + 1, i, j, o =>
    let e := lutRead ijLut ((positionSlice id k <<< 2) ||| o)
    decodeChunks ijLut id k (i ||| ((e >>> 6) <<< (4 * k))) (j ||| (((e >>> 2) &&& 0xF) <<< (4 * k)))
      (e &&& 3)

/-- `faceij_orientation(id)`, with the parity correction (43_decoder.md R180, R183). -/
def faceIjOrientation (ijLut : Lut) (id : Word) : GridAddress :=
  let face := faceField id
  let r := decodeChunks ijLut id.toNat Config.numChunks 0 0 (face &&& swapMask)
  let o := if lsb id &&& parityMask ≠ 0 then r.2.2 ^^^ swapMask else r.2.2
  ⟨face, r.1, r.2.1, o⟩

/-- TO_FACE_IJ's program (43_decoder.md R185). -/
def toFaceIjProg (ijLut : Lut) (op0 : Word) : Prog :=
  checkId op0 .op0 fun _ =>
    let g := faceIjOrientation ijLut op0
    .done (.four (BitVec.ofNat 64 g.face) (BitVec.ofNat 64 g.i) (BitVec.ofNat 64 g.j)
      (BitVec.ofNat 64 g.orientation))

/-- TO_FACE_IJ: decode a CellId (43_decoder.md R185). -/
def execToFaceIj (s : State) : Host.Outcome State Fault Refusal :=
  complete (fun f => toFaceIjProg s.ijLut f.op0) s

end Sys2Proof.Machine
end

