-- ==== Sys2Proof/Machine/Projection.lean ====
section
/-!
DEFINITION. The projection functions and the two commands that expose them (41_projection.md).
-/

namespace Sys2Proof.Machine

/-- `1.0`. -/
def f64One : Word := 0x3FF0000000000000

/-- `0.5`. -/
def f64Half : Word := 0x3FE0000000000000

/-- `3.0`. -/
def f64Three : Word := 0x4008000000000000

/-- `2^30`. -/
def f64Two30 : Word := 0x41D0000000000000

/-- `uv_to_st(u)`, each operation rounded on its own, in the order written (41_projection.md R140,
R141). -/
def uvToSt (u : Word) : Word :=
  if f64NonNeg u then f64Mul f64Half (f64Sqrt (f64Add f64One (f64Mul f64Three u)))
  else f64Sub f64One (f64Mul f64Half (f64Sqrt (f64Sub f64One (f64Mul f64Three u))))

/-- `floor(x)` clamped to `[0, 2^30 - 1]`, infinities saturating (41_projection.md R142). Every caller
has refused NaN (R146); the last case is never reached. -/
def floorClamp (x : FVal) : Nat :=
  match x with
  | .fin s m e => (intClamp (floorFin s m e) 0 (Config.maxSize - 1)).toNat
  | .inf false => Config.maxSize - 1
  | .inf true => 0
  | .nan => 0

/-- `st_to_ij(s)` (41_projection.md R142). -/
def stToIj (s : Word) : Nat := floorClamp (f64Value (f64Mul f64Two30 s))

/-- UV_TO_ST's program (41_projection.md R144). -/
def uvToStProg (op0 : Word) : Prog := checkF64 op0 .op0 fun u => return1 (uvToSt u)

/-- UV_TO_ST: quadratic projection of one coordinate (41_projection.md R144). -/
def execUvToSt (s : State) : Host.Outcome State Fault Refusal :=
  complete (fun f => uvToStProg f.op0) s

/-- ST_TO_IJ's program (41_projection.md R145). -/
def stToIjProg (op0 : Word) : Prog :=
  checkF64 op0 .op0 fun x => return1 (BitVec.ofNat 64 (stToIj x))

/-- ST_TO_IJ: quantise one normalised coordinate (41_projection.md R145). -/
def execStToIj (s : State) : Host.Outcome State Fault Refusal :=
  complete (fun f => stToIjProg f.op0) s

end Sys2Proof.Machine
end

