-- ==== Sys2Proof/Machine/Encoder.lean ====
section
/-!
DEFINITION. The encoder and the three commands that use it directly (42_encoder.md).
-/

namespace Sys2Proof.Machine

/-- The encoder's loop over its last `k` chunks, most significant first, from the position `P` and the
orientation `o` so far (42_encoder.md R160). -/
def encodeChunks (posLut : Lut) (i j : Nat) : Nat → Nat → Nat → Nat
  | 0, P, _ => P
  | k + 1, P, o =>
    let i4 := (i >>> (4 * k)) &&& 0xF
    let j4 := (j >>> (4 * k)) &&& 0xF
    let e := lutRead posLut ((i4 <<< 6) ||| (j4 <<< 2) ||| o)
    encodeChunks posLut i j k (P ||| ((e >>> 2) <<< (8 * k))) (e &&& 3)

/-- The 60-bit curve position of a grid address (42_encoder.md R160). -/
def encodePosition (posLut : Lut) (face i j : Nat) : Nat :=
  encodeChunks posLut i j Config.numChunks 0 (face &&& swapMask)

/-- `from_face_ij(face, i, j)`, with the leaf marker of 42_encoder.md R162 (42_encoder.md R160). -/
def fromFaceIj (posLut : Lut) (face i j : Nat) : Word :=
  BitVec.ofNat 64 ((face <<< 61) ||| (encodePosition posLut face i j <<< 1) ||| 1)

/-- FROM_FACE_IJ's program (42_encoder.md R163). -/
def fromFaceIjProg (posLut : Lut) (op0 op1 op2 : Word) : Prog :=
  checkFace op0 .op0 fun face =>
  checkBelow Config.maxSize op1 .op1 fun i =>
  checkBelow Config.maxSize op2 .op2 fun j =>
  return1 (fromFaceIj posLut face i j)

/-- FROM_FACE_IJ: encode a grid address (42_encoder.md R163). -/
def execFromFaceIj (s : State) : Host.Outcome State Fault Refusal :=
  complete (fun f => fromFaceIjProg s.posLut f.op0 f.op1 f.op2) s

/-- The leaf a face point quantises to (42_encoder.md R164, R165). -/
def fromFaceUv (posLut : Lut) (face : Nat) (u v : Word) : Word :=
  fromFaceIj posLut face (stToIj (uvToSt u)) (stToIj (uvToSt v))

/-- FROM_FACE_UV's program (42_encoder.md R164). -/
def fromFaceUvProg (posLut : Lut) (op0 op1 op2 : Word) : Prog :=
  checkFace op0 .op0 fun face =>
  checkF64 op1 .op1 fun u =>
  checkF64 op2 .op2 fun v =>
  return1 (fromFaceUv posLut face u v)

/-- FROM_FACE_UV: encode a face point (42_encoder.md R164). -/
def execFromFaceUv (s : State) : Host.Outcome State Fault Refusal :=
  complete (fun f => fromFaceUvProg s.posLut f.op0 f.op1 f.op2) s

/-- `Collab.faceUVFromPoint` on the point of the previous response, passed on unchanged (20_memory.md
R82), and the check of what it answers: a face above 5 or a NaN is PROJECTION_FAULT
(60_exceptions.md R270). -/
def askFaceUV (p : Config.Point) (k : Nat → Word → Word → Prog) : Prog :=
  .ask (.faceUVFromPt p) fun r =>
    if 5 < r.face.toNat ∨ f64IsNaN r.a ∨ f64IsNaN r.b then raise .projectionFault .cmdw
    else k r.face.toNat r.a r.b

/-- FROM_LATLNG's program: exactly two requests, kinds 0 and 2 (42_encoder.md R165). -/
def fromLatLngProg (posLut : Lut) (op0 op1 : Word) : Prog :=
  checkF64 op0 .op0 fun lat =>
  checkF64 op1 .op1 fun lng =>
  .ask (.ptFromLatLng lat lng) fun r =>
  askFaceUV r.point fun face u v =>
  return1 (fromFaceUv posLut face u v)

/-- FROM_LATLNG: encode a geographic point (42_encoder.md R165). -/
def execFromLatLng (s : State) : Host.Outcome State Fault Refusal :=
  complete (fun f => fromLatLngProg s.posLut f.op0 f.op1) s

end Sys2Proof.Machine
end

