-- ==== Sys2Proof/Machine/Traversal.lean ====
section
/-!
DEFINITION. Validity, face, level, parent and curve traversal (44_traversal.md).
-/

namespace Sys2Proof.Machine

/-- IS_VALID's program: no operand is an error (44_traversal.md R203). -/
def isValidProg (op0 : Word) : Prog := return1 (if validId op0 then 1 else 0)

/-- IS_VALID: test the validity invariant (44_traversal.md R203). -/
def execIsValid (s : State) : Host.Outcome State Fault Refusal :=
  complete (fun f => isValidProg f.op0) s

/-- FACE's program (44_traversal.md R204). -/
def faceProg (op0 : Word) : Prog :=
  checkId op0 .op0 fun _ => return1 (BitVec.ofNat 64 (faceField op0))

/-- FACE: face of a CellId (44_traversal.md R204). -/
def execFace (s : State) : Host.Outcome State Fault Refusal :=
  complete (fun f => faceProg f.op0) s

/-- LEVEL's program (44_traversal.md R205). -/
def levelProg (op0 : Word) : Prog :=
  checkId op0 .op0 fun l => return1 (BitVec.ofNat 64 l)

/-- LEVEL: level of a CellId (44_traversal.md R205). -/
def execLevel (s : State) : Host.Outcome State Fault Refusal :=
  complete (fun f => levelProg f.op0) s

/-- The marker of level `l` as a word, `newLsb` (44_traversal.md R206). -/
def markerWord (l : Nat) : Word := 1#64 <<< (2 * (30 - l))

/-- `parent(id, L)`; no subtraction for a leaf (44_traversal.md R206, 90_conflicts.md C2). -/
def parentId (id : Word) (l : Nat) : Word := (id &&& -(markerWord l)) ||| markerWord l

/-- PARENT's program: the operand before the level (44_traversal.md R207). -/
def parentProg (l : Nat) (op0 : Word) : Prog :=
  checkId op0 .op0 fun lv =>
    if lv < l then raise .invalidLevel .cmdw else return1 (parentId op0 l)

/-- PARENT: ancestor at a given level (44_traversal.md R207). -/
def execParent (l : Nat) (s : State) : Host.Outcome State Fault Refusal :=
  complete (fun f => parentProg l f.op0) s

/-- `sh(L)` (10_state.md R23). -/
def indexShift (l : Nat) : Nat := 2 * (30 - l) + 1

/-- `N(L)`, the cells of level `L` on all faces (10_state.md R23). -/
def cellCount (l : Nat) : Nat := 6 * 4 ^ l

/-- `idx(id)` at level `L` (10_state.md R23). -/
def curveIndex (id : Word) (l : Nat) : Nat := id.toNat >>> indexShift l

/-- `advance(id, steps)`, exact and then `u64` (44_traversal.md R208). -/
def advanceId (id : Word) (steps : Int) : Word :=
  let l := levelOf id
  let x := intClamp (curveIndex id l + steps) 0 (cellCount l)
  u64 (x * 2 ^ indexShift l + lsb id)

/-- ADVANCE's program: no value of `OP1` is an error (44_traversal.md R210). -/
def advanceProg (op0 op1 : Word) : Prog :=
  checkId op0 .op0 fun _ => return1 (advanceId op0 (s64 op1))

/-- ADVANCE: move along the curve, stopping at the ends (44_traversal.md R210). -/
def execAdvance (s : State) : Host.Outcome State Fault Refusal :=
  complete (fun f => advanceProg f.op0 f.op1) s

/-- `advance_wrap(id, steps)`, the remainder Euclidean (44_traversal.md R211). -/
def advanceWrapId (id : Word) (steps : Int) : Word :=
  let l := levelOf id
  let x := (curveIndex id l + steps) % (cellCount l : Int)
  u64 (x * 2 ^ indexShift l + lsb id)

/-- ADVANCE_WRAP's program (44_traversal.md R212). -/
def advanceWrapProg (op0 op1 : Word) : Prog :=
  checkId op0 .op0 fun _ => return1 (advanceWrapId op0 (s64 op1))

/-- ADVANCE_WRAP: move along the curve, wrapping at the ends (44_traversal.md R212). -/
def execAdvanceWrap (s : State) : Host.Outcome State Fault Refusal :=
  complete (fun f => advanceWrapProg f.op0 f.op1) s

/-- NEXT's program (44_traversal.md R213). -/
def nextProg (op0 : Word) : Prog := checkId op0 .op0 fun _ => return1 (advanceWrapId op0 1)

/-- NEXT: the next cell along the curve at the same level (44_traversal.md R213). -/
def execNext (s : State) : Host.Outcome State Fault Refusal :=
  complete (fun f => nextProg f.op0) s

/-- PREV's program (44_traversal.md R214). -/
def prevProg (op0 : Word) : Prog := checkId op0 .op0 fun _ => return1 (advanceWrapId op0 (-1))

/-- PREV: the previous cell along the curve at the same level (44_traversal.md R214). -/
def execPrev (s : State) : Host.Outcome State Fault Refusal :=
  complete (fun f => prevProg f.op0) s

end Sys2Proof.Machine
end

