-- ==== Sys2Proof/Machine/Neighbors.lean ====
section
/-!
DEFINITION. Face wrap and edge neighbours (45_neighbors.md).
-/

namespace Sys2Proof.Machine

/-- `UV_LIMIT`, `1 + 2^-52` (45_neighbors.md R243; notes/assumptions/14.md). -/
def uvLimit : Word := 0x3FF0000000000001

/-- The clamped coordinate of one axis: `i` to `[-1, 2^30]` (45_neighbors.md R241). -/
def wrapClamp (i : Int) : Int := intClamp i (-1) Config.maxSize

/-- The `u` of a clamped coordinate: `((2*i + 1) / 2^30) - 1`, then the corner limit (45_neighbors.md
R242, R243). -/
def wrapUV (i : Int) : Word :=
  f64Clamp (f64Sub (f64Div (f64OfInt (2 * i + 1)) f64Two30) f64One) (f64Neg uvLimit) uvLimit

/-- Linear re-quantisation: `st_to_ij(0.5 * (u + 1))` (45_neighbors.md R245). -/
def requantise (u : Word) : Nat := stToIj (f64Mul f64Half (f64Add u f64One))

/-- `from_face_ij_wrap(face, i, j)`, handing its leaf to `k`: requests of kinds 1 and 2, the point
passed on unchanged (45_neighbors.md R244). -/
def fromFaceIjWrap (posLut : Lut) (face : Nat) (i j : Int) (k : Word → Prog) : Prog :=
  let u := wrapUV (wrapClamp i)
  let v := wrapUV (wrapClamp j)
  .ask (.ptFromFaceUV (BitVec.ofNat 3 face) u v) fun r =>
  askFaceUV r.point fun f2 u2 v2 => k (fromFaceIj posLut f2 (requantise u2) (requantise v2))

/-- FROM_FACE_IJ_WRAP's program: always two requests (45_neighbors.md R246). -/
def fromFaceIjWrapProg (posLut : Lut) (op0 op1 op2 : Word) : Prog :=
  checkFace op0 .op0 fun face =>
  fromFaceIjWrap posLut face (s64 op1) (s64 op2) return1

/-- FROM_FACE_IJ_WRAP: encode a grid address that may lie off the face (45_neighbors.md R246). -/
def execFromFaceIjWrap (s : State) : Host.Outcome State Fault Refusal :=
  complete (fun f => fromFaceIjWrapProg s.posLut f.op0 f.op1 f.op2) s

/-- `from_face_ij_same(face, i, j, same)`: the encoder directly for an address still on the face, the
wrap for one that spills (45_neighbors.md R240). -/
def fromFaceIjSame (posLut : Lut) (face : Nat) (i j : Int) (same : Bool) (k : Word → Prog) : Prog :=
  if same then k (fromFaceIj posLut face i.toNat j.toNat) else fromFaceIjWrap posLut face i j k

/-- `edgeNeighbors(id)`: down, right, up, left, each brought back to the cell's level
(45_neighbors.md R247). -/
def edgeNeighbors (posLut ijLut : Lut) (id : Word) (l : Nat) : Prog :=
  let g := faceIjOrientation ijLut id
  let i : Int := g.i
  let j : Int := g.j
  let size : Int := 2 ^ (30 - l)
  fromFaceIjSame posLut g.face i (j - size) (decide (0 ≤ j - size)) fun n0 =>
  fromFaceIjSame posLut g.face (i + size) j (decide (i + size < Config.maxSize)) fun n1 =>
  fromFaceIjSame posLut g.face i (j + size) (decide (j + size < Config.maxSize)) fun n2 =>
  fromFaceIjSame posLut g.face (i - size) j (decide (0 ≤ i - size)) fun n3 =>
  .done (.four (parentId n0 l) (parentId n1 l) (parentId n2 l) (parentId n3 l))

/-- EDGE_NEIGHBORS' program (45_neighbors.md R248). -/
def edgeNeighborsProg (posLut ijLut : Lut) (op0 : Word) : Prog :=
  checkId op0 .op0 fun l => edgeNeighbors posLut ijLut op0 l

/-- EDGE_NEIGHBORS: the four cells of the same level that share an edge (45_neighbors.md R248). -/
def execEdgeNeighbors (s : State) : Host.Outcome State Fault Refusal :=
  complete (fun f => edgeNeighborsProg s.posLut s.ijLut f.op0) s

end Sys2Proof.Machine
end

