-- ==== Sys2Proof/Machine/TableRead.lean ====
section
/-!
DEFINITION. The lookup-table command (40_lut.md R129).
-/

namespace Sys2Proof.Machine

/-- The table `TSEL` selects (40_lut.md R129). -/
def State.table (s : State) : Table → Lut
  | .pos => s.posLut
  | .ij => s.ijLut

/-- LUT_READ's program (40_lut.md R129). -/
def lutReadProg (t : Lut) (op0 : Word) : Prog :=
  checkBelow Config.lutSize op0 .op0 fun k => return1 (BitVec.ofNat 64 (lutRead t k))

/-- LUT_READ: read one lookup-table entry (40_lut.md R129). -/
def execLutRead (table : Table) (s : State) : Host.Outcome State Fault Refusal :=
  complete (fun f => lutReadProg (s.table table) f.op0) s

end Sys2Proof.Machine
end

