-- ==== Sys2Proof/Machine/Commands.lean ====
section
/-!
DEFINITION. The program of each command on the operands it latched: what the collaborator port needs
to know of a command before it completes (20_memory.md R77). Each meaning completes this program
(Sys2Proof/Laws/Exec.lean proves it).
-/

namespace Sys2Proof.Machine

/-- The program of a command in flight (30_encoding.md R93). -/
def commandProg (i : Instr) (s : State) (f : InFlight) : Prog :=
  match i with
  | .lutRead table => lutReadProg (s.table table) f.op0
  | .uvToSt => uvToStProg f.op0
  | .stToIj => stToIjProg f.op0
  | .fromFaceIj => fromFaceIjProg s.posLut f.op0 f.op1 f.op2
  | .fromFaceUv => fromFaceUvProg s.posLut f.op0 f.op1 f.op2
  | .fromLatLng => fromLatLngProg s.posLut f.op0 f.op1
  | .toFaceIj => toFaceIjProg s.ijLut f.op0
  | .isValid => isValidProg f.op0
  | .face => faceProg f.op0
  | .level => levelProg f.op0
  | .parent l => parentProg l f.op0
  | .advance => advanceProg f.op0 f.op1
  | .advanceWrap => advanceWrapProg f.op0 f.op1
  | .next => nextProg f.op0
  | .prev => prevProg f.op0
  | .edgeNeighbors => edgeNeighborsProg s.posLut s.ijLut f.op0
  | .fromFaceIjWrap => fromFaceIjWrapProg s.posLut f.op0 f.op1 f.op2

/-- The program of the command in flight, whatever its word (30_encoding.md R97, R98). -/
def wordProg (s : State) (f : InFlight) : Prog :=
  match decode f.word with
  | .ok i => commandProg i s f
  | .error _ => illegalProg

/-- The next request of the command in flight is put on the collaborator port (20_memory.md R77). -/
def State.issueCollab (s : State) : State := s.raiseCollab (wordProg s)

/-- The command in flight waits for good: it goes on only with a response, and no more are to come
(70_reset_and_hazards.md R300; notes/assumptions/22.md). -/
def State.stalled (s : State) : Bool :=
  match s.inflight with
  | none => false
  | some f => s.collabStalls && ((f.gate (wordProg s f)).resume f.responses).asks

/-- A state in which the block's very next move runs the command word `w`: initialised, with `w` just
accepted on the operands the registers hold, the host's write acknowledged, nothing scheduled before
its completion, and a collaborator that answers (70_reset_and_hazards.md R292, R294, R295;
notes/assumptions/16.md). -/
def State.withCommand (w : Word) (s : State) : State :=
  { s.buildTables.accept w with
    hostPort := .answered .written, agenda := [], collabStalls := false }

end Sys2Proof.Machine
end

