-- ==== Sys2Proof/Machine/Dispatch.lean ====
section
/-! DEFINITION. The one match from a command to its meaning (30_encoding.md R93). -/

namespace Sys2Proof.Machine

/-- Completion of the command in flight, decoded as `i`. -/
def exec (i : Instr) (s : State) : Host.Outcome State Fault Refusal :=
  match i with
  | .lutRead table => Sys2Proof.Machine.execLutRead table s
  | .uvToSt => Sys2Proof.Machine.execUvToSt s
  | .stToIj => Sys2Proof.Machine.execStToIj s
  | .fromFaceIj => Sys2Proof.Machine.execFromFaceIj s
  | .fromFaceUv => Sys2Proof.Machine.execFromFaceUv s
  | .fromLatLng => Sys2Proof.Machine.execFromLatLng s
  | .toFaceIj => Sys2Proof.Machine.execToFaceIj s
  | .isValid => Sys2Proof.Machine.execIsValid s
  | .face => Sys2Proof.Machine.execFace s
  | .level => Sys2Proof.Machine.execLevel s
  | .parent l => Sys2Proof.Machine.execParent l s
  | .advance => Sys2Proof.Machine.execAdvance s
  | .advanceWrap => Sys2Proof.Machine.execAdvanceWrap s
  | .next => Sys2Proof.Machine.execNext s
  | .prev => Sys2Proof.Machine.execPrev s
  | .edgeNeighbors => Sys2Proof.Machine.execEdgeNeighbors s
  | .fromFaceIjWrap => Sys2Proof.Machine.execFromFaceIjWrap s

end Sys2Proof.Machine
end

