-- ==== Sys2Proof/Machine/Moves.lean ====
section
/-!
DEFINITION. The moves a step can make: the completion of the command in flight, the block's own move,
the host's polls, and the effect of each event (70_reset_and_hazards.md R305).
-/

namespace Sys2Proof.Machine

/-- `Complete`, enabled when `BUSY = 1`: the word in flight is decoded and its command run to its end
(70_reset_and_hazards.md R305); an illegal word completes with ILLEGAL_COMMAND (60_exceptions.md
R268). -/
def completeInFlight (s : State) : Host.Outcome State Fault Refusal :=
  match s.inflight with
  | none => .next s
  | some f =>
    match decode f.word with
    | .ok i => exec i s
    | .error _ => complete (fun _ => illegalProg) s

/-- The block left to itself: it answers the host's outstanding request, else completes what is in
flight, else finishes initialisation, else stays as it is (70_reset_and_hazards.md R292, R302;
notes/assumptions/2.md). A command whose response never comes holds its request and stays in flight
(R300). -/
def ownMove (s : State) : Host.Outcome State Fault Refusal :=
  if s.hostWaiting then .next s.answerHost
  else if s.stalled then .next s.issueCollab
  else if s.isBusy then completeInFlight s
  else .next s.initDone

/-- A poll of `STATUS` (30_encoding.md R101): while a request of the host is outstanding or the poll
would go on, the block makes its own move and the poll stays, for good behind a command that waits for
good (70_reset_and_hazards.md R300); then the poll that ends it is performed and leaves the agenda
(notes/assumptions/4.md). -/
def pollStatus (goesOn : Bool) (rest : List Event) (s : State) : Host.Outcome State Fault Refusal :=
  if s.hostWaiting || goesOn then ownMove s
  else .next ({ s with agenda := rest }.serve statusRead)

/-- The effect of an event, `rest` being what is scheduled after it. An event leaves the agenda as it is
taken; one that is not enabled has no other effect (notes/assumptions/3.md). -/
def takeEvent (e : Event) (rest : List Event) (s : State) : Host.Outcome State Fault Refusal :=
  match e with
  | .reset strap => .next ({ s with agenda := rest }.resetTo strap)
  | .initDone => .next { s with agenda := rest }.initDone
  | .hostReq a => .next ({ s with agenda := rest }.raiseHost a)
  | .hostAck => .next { s with agenda := rest }.answerHost
  | .collabReq => .next { s with agenda := rest }.issueCollab
  | .collabRsp => .next { s with agenda := rest }.takeRsp
  | .complete => completeInFlight { s with agenda := rest }
  | .pollBusy => pollStatus s.isBusy rest s
  | .pollReady => pollStatus (decide (s.initState = .building)) rest s

end Sys2Proof.Machine
end

