-- ==== Sys2Proof/Machine/Step.lean ====
section
/-!
DEFINITION. One step: the next event of the agenda, or the block's own move when nothing is scheduled
(70_reset_and_hazards.md R305).
-/

namespace Sys2Proof.Machine

/-- One step (70_reset_and_hazards.md R305; notes/assumptions/1.md and 2.md). -/
def step (s : State) : Host.Outcome State Fault Refusal :=
  match s.agenda with
  | [] => ownMove s
  | e :: rest => takeEvent e rest s

/-- The block about to run the instruction of a table row's word (notes/assumptions/16.md). -/
def State.withFetchWord (s : State) (nbits w : Nat) : State := s.withCommand (tableWord nbits w)

end Sys2Proof.Machine
end

