-- ==== Sys2Proof/Machine/RefCollab.lean ====
section
/-!
DEFINITION. The reference collaborator of 20_memory.md R79 to R81: the configuration the spec's
vectors use, not a property of the block. R81 does not fix `cos` and `sin` in their last bits, so they
are arguments (notes/assumptions/20.md).
-/

namespace Sys2Proof.Machine

/-- Reference PT_FROM_FACEUV (20_memory.md R79). -/
def refPtFromFaceUV (face : BitVec 3) (u v : Word) : Config.Point :=
  match face.toNat with
  | 0 => ⟨f64One, u, v⟩
  | 1 => ⟨f64Neg u, f64One, v⟩
  | 2 => ⟨f64Neg u, f64Neg v, f64One⟩
  | 3 => ⟨f64Neg f64One, f64Neg v, f64Neg u⟩
  | 4 => ⟨v, f64Neg f64One, f64Neg u⟩
  | _ => ⟨v, u, f64Neg f64One⟩

/-- `|a|`. -/
def f64Abs (a : Word) : Word := a &&& ~~~(1#64 <<< 63)

/-- The axis of the largest component, a tie going to the later one (20_memory.md R80). -/
def refAxis (p : Config.Point) : Nat :=
  let a0 := f64Abs p.x
  let a1 := f64Abs p.y
  let a2 := f64Abs p.z
  if f64Lt a1 a0 then (if f64Lt a2 a0 then 0 else 2) else (if f64Lt a2 a1 then 1 else 2)

/-- The component of a point on an axis. -/
def refComponent (p : Config.Point) : Nat → Word
  | 0 => p.x
  | 1 => p.y
  | _ => p.z

/-- Reference FACEUV_FROM_PT (20_memory.md R80). -/
def refFaceUVFromPoint (p : Config.Point) : Config.FaceUV :=
  let axis := refAxis p
  let face := if f64Lt (refComponent p axis) (f64Zero false) then axis + 3 else axis
  match face with
  | 0 => ⟨0, f64Div p.y p.x, f64Div p.z p.x⟩
  | 1 => ⟨1, f64Div (f64Neg p.x) p.y, f64Div p.z p.y⟩
  | 2 => ⟨2, f64Div (f64Neg p.x) p.z, f64Div (f64Neg p.y) p.z⟩
  | 3 => ⟨3, f64Div p.z p.x, f64Div p.y p.x⟩
  | 4 => ⟨4, f64Div p.z p.y, f64Div (f64Neg p.x) p.y⟩
  | _ => ⟨5, f64Div (f64Neg p.y) p.z, f64Div (f64Neg p.x) p.z⟩

/-- `pi / 180`, binary64 `pi` divided once. -/
def f64Degree : Word := f64Div 0x400921FB54442D18 0x4066800000000000

/-- Reference PT_FROM_LATLNG over a platform's `cos` and `sin` (20_memory.md R81). -/
def refPtFromLatLng (cos sin : Word → Word) (lat lng : Word) : Config.Point :=
  let phi := f64Mul lat f64Degree
  let lam := f64Mul lng f64Degree
  ⟨f64Mul (cos phi) (cos lam), f64Mul (cos phi) (sin lam), sin phi⟩

/-- The reference collaborator over a platform's `cos` and `sin` (20_memory.md R78 to R81). -/
def refCollab (cos sin : Word → Word) : Config.Collab where
  ptFromLatLng := refPtFromLatLng cos sin
  ptFromFaceUV := refPtFromFaceUV
  faceUVFromPoint := refFaceUVFromPoint

end Sys2Proof.Machine
end

