-- ==== Sys2Proof/Safety.lean ====
section
/-!
DEFINITION. What counts as a sound state and what a completion leaves, in the terms the claims use.
-/

namespace Sys2Proof.Machine

/-! ### What a completion leaves -/

/-- What no completion changes, and the in-flight record it discards (60_exceptions.md R261,
10_state.md R38, R41). -/
structure KeepsRest (s t : State) : Prop where
  cmd : t.cmd = s.cmd
  op0 : t.op0 = s.op0
  op1 : t.op1 = s.op1
  op2 : t.op2 = s.op2
  overrun : t.overrun = s.overrun
  lastOpcode : t.lastOpcode = s.lastOpcode
  initState : t.initState = s.initState
  projMode : t.projMode = s.projMode
  posLut : t.posLut = s.posLut
  ijLut : t.ijLut = s.ijLut
  hostPort : t.hostPort = s.hostPort
  agenda : t.agenda = s.agenda
  collabTable : t.collabTable = s.collabTable
  collabStalls : t.collabStalls = s.collabStalls
  inflight : t.inflight = none

/-- Success with one result (60_exceptions.md R261), `asked` being the collaborator requests made
by the completion. -/
structure Succeeds1 (s t : State) (r0 : Word) (asked : List CollabReq) : Prop where
  rest : KeepsRest s t
  res0 : t.res0 = r0
  res1 : t.res1 = s.res1
  res2 : t.res2 = s.res2
  res3 : t.res3 = s.res3
  errCode : t.errCode = .noError
  errOperand : t.errOperand = .cmdw
  resultCount : t.resultCount = 1
  trace : t.collabTrace = s.collabTrace ++ asked

/-- Success with four results (60_exceptions.md R261). -/
structure Succeeds4 (s t : State) (r0 r1 r2 r3 : Word) (asked : List CollabReq) : Prop where
  rest : KeepsRest s t
  res0 : t.res0 = r0
  res1 : t.res1 = r1
  res2 : t.res2 = r2
  res3 : t.res3 = r3
  errCode : t.errCode = .noError
  errOperand : t.errOperand = .cmdw
  resultCount : t.resultCount = 4
  trace : t.collabTrace = s.collabTrace ++ asked

/-- Error `e` at operand `a`: no result register is written (60_exceptions.md R261, R273). -/
structure Fails (s t : State) (e : ErrCode) (a : ErrOperand) (asked : List CollabReq) : Prop where
  rest : KeepsRest s t
  res0 : t.res0 = s.res0
  res1 : t.res1 = s.res1
  res2 : t.res2 = s.res2
  res3 : t.res3 = s.res3
  errCode : t.errCode = e
  errOperand : t.errOperand = a
  resultCount : t.resultCount = 0
  trace : t.collabTrace = s.collabTrace ++ asked

/-- The command in flight was accepted while READY (60_exceptions.md R269). -/
def Runs (s : State) (f : InFlight) : Prop := s.inflight = some f ∧ f.ready = true

/-- No exchange with the collaborator has begun (70_reset_and_hazards.md R295). -/
def Fresh (f : InFlight) : Prop := f.request = none ∧ f.responses = []

/-! ### CellIds by their curve index -/

/-- The cell of level `l` whose curve index is `x`: `x * 2^sh + lsb`; `x = N(l)` is the End sentinel
(10_state.md R23, R28). -/
def cellAt (l x : Nat) : Word := BitVec.ofNat 64 (x * 2 ^ (2 * (30 - l) + 1) + 2 ^ (2 * (30 - l)))

/-- The three conditions of 10_state.md R22 on the number itself: a face at most 5, and a lowest set
bit of the low 61 bits at an even index. -/
def IsCellId (id : Word) : Prop :=
  id.toNat / 2 ^ 61 ≤ 5 ∧ ∃ b ≤ 60, b % 2 = 0 ∧ id.toNat % 2 ^ 61 % 2 ^ (b + 1) = 2 ^ b

/-! ### The wrap, with its traffic -/

/-- What `from_face_ij_wrap` comes to when `ans` answers: its leaf, or none for PROJECTION_FAULT
(45_neighbors.md R244). -/
def wrapLeaf (ans : CollabReq → CollabRsp) (posLut : Lut) (face : Nat) (i j : Int) : Option Word :=
  let r := ans (.faceUVFromPt
    (ans (.ptFromFaceUV (BitVec.ofNat 3 face) (wrapUV (wrapClamp i)) (wrapUV (wrapClamp j)))).point)
  if 5 < r.face.toNat ∨ f64IsNaN r.a ∨ f64IsNaN r.b then none
  else some (fromFaceIj posLut r.face.toNat (requantise r.a) (requantise r.b))

/-- The two requests of a wrap, in order (20_memory.md R77, R82). -/
def wrapTraffic (ans : CollabReq → CollabRsp) (face : Nat) (i j : Int) : List CollabReq :=
  let q := CollabReq.ptFromFaceUV (BitVec.ofNat 3 face) (wrapUV (wrapClamp i)) (wrapUV (wrapClamp j))
  [q, .faceUVFromPt (ans q).point]

/-- A candidate neighbour's leaf: the encoder when `same`, the wrap otherwise (45_neighbors.md
R240). -/
def candidateLeaf (ans : CollabReq → CollabRsp) (posLut : Lut) (face : Nat) (i j : Int)
    (same : Prop) [Decidable same] : Option Word :=
  if same then some (fromFaceIj posLut face i.toNat j.toNat) else wrapLeaf ans posLut face i j

/-- A candidate neighbour's requests: none when `same`, two otherwise (45_neighbors.md R248). -/
def candidateTraffic (ans : CollabReq → CollabRsp) (face : Nat) (i j : Int)
    (same : Prop) [Decidable same] : List CollabReq :=
  if same then [] else wrapTraffic ans face i j

/-! ### Values of binary64 words -/

/-- The rational a finite value stands for (00_scope.md R12). -/
def finValue (neg : Bool) (m : Nat) (e : Int) : ℚ := (signedNat neg m : ℚ) * (2 : ℚ) ^ e

/-! ### Invariants -/

/-- The lookup tables: 1024 entries each, the built contents whenever READY, and READY only under the
QUADRATIC strap (10_state.md R39, R40; 40_lut.md R128; 41_projection.md R147). -/
structure TablesSound (s : State) : Prop where
  posLength : lutWf s.posLut
  ijLength : lutWf s.ijLut
  posBuilt : s.initState = .ready → s.posLut = builtPosLut
  ijBuilt : s.initState = .ready → s.ijLut = builtIjLut
  strap : s.initState = .ready → s.projMode = 0

/-- How far the exchanges of a program have come: `n` requests are answered, and the next one may be
outstanding; the trace shows exactly these (20_memory.md R77). -/
def Exchanged (p : Prog) (ans : CollabReq → CollabRsp) (f : InFlight) (trace : List CollabReq) :
    Prop :=
  ∃ n ≤ (p.requests ans).length,
    f.responses = ((p.requests ans).map ans).take n ∧
    match f.request with
    | none => trace = (p.requests ans).take n
    | some q => (p.requests ans)[n]? = some q ∧ trace = (p.requests ans).take (n + 1)

/-- The command in flight: it is the word `CMD` shows, it counts as accepted while READY only if the
block is READY, and its exchanges follow its program (10_state.md R35, R41; 20_memory.md R77). -/
structure FlightSound (s : State) (f : InFlight) : Prop where
  word : f.word = s.cmd
  ready : f.ready = true → s.initState = .ready
  exchanged : Exchanged (f.gate (wordProg s f)) s.collabAnswer f s.collabTrace

/-- `LAST_OPCODE` and the command in flight agree with `CMD` (10_state.md R35, R36, R41). -/
structure CommandSound (s : State) : Prop where
  lastOpcode : s.lastOpcode = opcodeField s.cmd
  inflight : ∀ f, s.inflight = some f → FlightSound s f

/-- The outcome fields: the operand named fits the code, results are counted only on success, the
codes of initialisation stay with its outcome, and nothing is written to a result register before
READY (60_exceptions.md R261, R262, R265, R269; 10_state.md R36). -/
structure OutcomeSound (s : State) : Prop where
  operand : s.errOperand ≠ .cmdw →
    s.errCode = .invalidFace ∨ s.errCode = .malformedCellId ∨ s.errCode = .invalidOperand
  count : s.resultCount = 0 ∨ s.resultCount = 1 ∨ s.resultCount = 4
  counted : s.errCode ≠ .noError → s.resultCount = 0
  building : s.initState = .building → s.errCode = .noError ∨ s.errCode = .notReady
  failed : s.initState = .failed →
    s.errCode = .unsupportedProjection ∨ s.errCode = .notReady
  ready : s.initState = .ready → s.errCode ≠ .unsupportedProjection
  untouched : s.initState ≠ .ready →
    s.res0 = 0 ∧ s.res1 = 0 ∧ s.res2 = 0 ∧ s.res3 = 0 ∧ s.resultCount = 0

/-- Every state a run reaches from reset is sound. -/
structure Sound (s : State) : Prop where
  tables : TablesSound s
  command : CommandSound s
  outcome : OutcomeSound s

end Sys2Proof.Machine
end

