-- ==== Sys2Proof/Certificates/Slice0/Obligations.lean ====
section
/-!
DEFINITION. The statements for the provers. Each says in its docstring which rule it formalises.
-/

open Sys2Proof Sys2Proof.Machine

/-! ### Encoding -/

/-- 30_encoding.md R91, R92, R98, R102: no bit of a command's encoding is lost. -/
def Obligations.DecodeEncodeRoundTrip : Prop :=
  ∀ i : Instr, i.wf = true → decode (encode i) = .ok i

/-- 30_encoding.md R98: a word decodes to one command only, and each command has one word. -/
def Obligations.EncodeDecodeRoundTrip : Prop :=
  ∀ (w : Word) (i : Instr), decode w = .ok i → i.wf = true ∧ encode i = w

/-- 30_encoding.md R98, its `decode(w)` read off the word's number: the four tests that make a word
illegal, and otherwise the command of the opcode with its two fields. -/
def Obligations.DecodeIsTotalAndExact : Prop :=
  ∀ w : Word,
    ((w.toNat % 256 < 0x01 ∨ 0x11 < w.toNat % 256 ∨ w.toNat / 2 ^ 15 ≠ 0 ∨
        (w.toNat % 256 ≠ 0x0B ∧ w.toNat / 2 ^ 8 % 64 ≠ 0) ∨
        (w.toNat % 256 ≠ 0x01 ∧ w.toNat / 2 ^ 14 % 2 ≠ 0)) →
      ∃ e, decode w = .error e) ∧
    (¬(w.toNat % 256 < 0x01 ∨ 0x11 < w.toNat % 256 ∨ w.toNat / 2 ^ 15 ≠ 0 ∨
        (w.toNat % 256 ≠ 0x0B ∧ w.toNat / 2 ^ 8 % 64 ≠ 0) ∨
        (w.toNat % 256 ≠ 0x01 ∧ w.toNat / 2 ^ 14 % 2 ≠ 0)) →
      ∃ i, decode w = .ok i ∧ i.opcode = w.toNat % 256 ∧
        i.levelImm = w.toNat / 2 ^ 8 % 64 ∧ i.tableImm = w.toNat / 2 ^ 14 % 2)

/-- 30_encoding.md R102 and the rows of 95_test_vectors.md section 2.7. -/
def Obligations.SpecWordsDecode : Prop :=
  decode 0x000000000000000E = .ok .next ∧ decode 0x0000000000000F0B = .ok (.parent 15) ∧
  decode 0x0000000000000001 = .ok (.lutRead .pos) ∧ decode 0x0000000000004001 = .ok (.lutRead .ij) ∧
  decode 0x0000000000003F0B = .ok (.parent 63) ∧
  decode 0x000000000000010E = .error .levelField ∧ decode 0x000000000000400E = .error .tableField ∧
  decode 0x000000010000000E = .error .reservedBits ∧ decode 0x0000000000000012 = .error .illegalOpcode

/-- 20_memory.md R65: byte lane `n` carries bits `8n+7 .. 8n`. -/
def Obligations.LanesCarryTheWord : Prop :=
  ∀ w : Word, wordOfLanes (lanesOfWord w) = some w ∧
    ∀ n < 8, ((lanesOfWord w).getD n 0).toNat = w.toNat / 2 ^ (8 * n) % 256

/-! ### Reset and initialisation -/

/-- 70_reset_and_hazards.md R291, R303: a reset edge, whatever the block was doing. -/
def Obligations.ResetEdgeGivesResetValues : Prop :=
  ∀ (s : State) (strap : BitVec 2) (rest : List Event), s.agenda = .reset strap :: rest →
    ∃ t, step s = .next t ∧ t.op0 = 0 ∧ t.op1 = 0 ∧ t.op2 = 0 ∧
      t.res0 = 0 ∧ t.res1 = 0 ∧ t.res2 = 0 ∧ t.res3 = 0 ∧ t.cmd = 0 ∧
      t.status = 0x000000000000F000 ∧ t.initState = .building ∧ t.inflight = none ∧
      t.hostPort = .idle ∧ t.projMode = strap ∧ t.agenda = rest

/-- The state right after reset meets the invariants below (70_reset_and_hazards.md R291; the strap
sampled as 0 is the model's choice, notes/assumptions/7.md). -/
def Obligations.ResetStateIsSound : Prop :=
  Sound State.reset ∧ State.reset.status = 0x000000000000F000

/-- 70_reset_and_hazards.md R292, R305, 40_lut.md R123: the READY step leaves what the construction
writes, and touches no outcome field. That both tables are written in this one step, R305's
`InitDone`, is the model's reading (notes/assumptions/15.md). -/
def Obligations.InitDoneRunsTheConstruction : Prop :=
  ∀ (s : State) (rest : List Event), s.agenda = .initDone :: rest → s.initState = .building →
    s.projMode = 0 → lutWf s.posLut → lutWf s.ijLut →
    step s = .next { s with
      agenda := rest, initState := .ready
      posLut := runBuildPos s.posLut, ijLut := runBuildIj s.ijLut }

/-- 70_reset_and_hazards.md R293, 60_exceptions.md R265. -/
def Obligations.InitDoneFailsOnStrap : Prop :=
  ∀ (s : State) (rest : List Event), s.agenda = .initDone :: rest → s.initState = .building →
    s.projMode ≠ 0 →
    step s = .next { s with
      agenda := rest, initState := .failed
      errCode := .unsupportedProjection, errOperand := .cmdw }

/-- 40_lut.md R126, on every key of either table: mutually inverse, and each one to one on the 1024
keys (`lutRead_lt` keeps the values below 1024). -/
def Obligations.TablesAreInverse : Prop :=
  (∀ k < 1024,
    lutRead builtIjLut (lutRead builtPosLut k / 4 * 4 + k % 4) =
      k / 4 * 4 + lutRead builtPosLut k % 4 ∧
    lutRead builtPosLut (lutRead builtIjLut k / 4 * 4 + k % 4) =
      k / 4 * 4 + lutRead builtIjLut k % 4) ∧
  (∀ k < 1024, ∀ k' < 1024, lutRead builtPosLut k = lutRead builtPosLut k' → k = k') ∧
  (∀ k < 1024, ∀ k' < 1024, lutRead builtIjLut k = lutRead builtIjLut k' → k = k')

/-- 40_lut.md R124: the construction writes every entry of both tables exactly once. -/
def Obligations.ConstructionWritesEachEntryOnce : Prop :=
  (buildWrites.map LeafWrite.posKey).Perm (List.range 1024) ∧
  (buildWrites.map LeafWrite.ijKey).Perm (List.range 1024)

/-- 10_state.md R39, R40 and 40_lut.md R128: once decided, the outcome of initialisation and the tables
last until the next reset; so does the sampled strap (10_state.md R46, 70_reset_and_hazards.md
R304). -/
def Obligations.InitialisationLastsUntilReset : Prop :=
  ∀ s : State, s.initState ≠ .building → (∀ strap rest, s.agenda ≠ .reset strap :: rest) →
    ∃ t, step s = .next t ∧ t.initState = s.initState ∧ t.posLut = s.posLut ∧
      t.ijLut = s.ijLut ∧ t.projMode = s.projMode

/-! ### The register window -/

/-- 20_memory.md R64: an access that is not an aligned doubleword. -/
def Obligations.IllegalAccessIsBusError : Prop :=
  ∀ (s : State) (a : Access) (rest : List Event), s.agenda = .hostAck :: rest →
    s.hostPort = .pending a → (a.size ≠ 3 ∨ a.addr.toNat % 8 ≠ 0) →
    step s = .next { s with agenda := rest, hostPort := .answered .busError } ∧
    HostRsp.busError.err = true ∧ HostRsp.busError.rdata = some 0

/-- 20_memory.md R66: reserved offsets, and writes to `RES0` to `RES3`. -/
def Obligations.ReservedAndReadOnlyAreBusErrors : Prop :=
  ∀ (s : State) (a : Access) (rest : List Event), s.agenda = .hostAck :: rest →
    s.hostPort = .pending a →
    (a.addr = 0x28 ∨ (0x50 ≤ a.addr.toNat ∧ a.addr.toNat ≤ 0x78) ∨
      (a.write = true ∧ 0x30 ≤ a.addr.toNat ∧ a.addr.toNat ≤ 0x48)) →
    step s = .next { s with agenda := rest, hostPort := .answered .busError }

/-- The host port. 10_state.md R43: a request is raised only when none is outstanding. 20_memory.md R62,
R67: a legal read answers the register and changes nothing else. 30_encoding.md R101: a poll goes on
while its condition does, and ends with the read of `STATUS` (notes/assumptions/4.md). -/
def Obligations.HostPortAnswersReadsAndPolls : Prop :=
  ∀ s : State,
    (∀ a rest, s.agenda = .hostReq a :: rest →
      (s.hostWaiting = true → step s = .next { s with agenda := rest }) ∧
      (s.hostWaiting = false → step s = .next { s with agenda := rest, hostPort := .pending a })) ∧
    (∀ (a : Access) (rest : List Event) (v : Word), s.agenda = .hostAck :: rest →
      s.hostPort = .pending a → a.write = false → a.size = 3 →
      (a.addr = 0x00 ∧ v = s.cmd ∨ a.addr = 0x08 ∧ v = s.status ∨ a.addr = 0x10 ∧ v = s.op0 ∨
        a.addr = 0x18 ∧ v = s.op1 ∨ a.addr = 0x20 ∧ v = s.op2 ∨ a.addr = 0x30 ∧ v = s.res0 ∨
        a.addr = 0x38 ∧ v = s.res1 ∨ a.addr = 0x40 ∧ v = s.res2 ∨ a.addr = 0x48 ∧ v = s.res3) →
      step s = .next { s with agenda := rest, hostPort := .answered (.data v) }) ∧
    (∀ rest, s.agenda = .pollBusy :: rest →
      (s.hostWaiting = true ∨ s.inflight ≠ none → ∃ t, step s = .next t ∧ t.agenda = s.agenda) ∧
      (s.hostWaiting = false → s.inflight = none →
        step s = .next { s with agenda := rest, hostPort := .answered (.data s.status) })) ∧
    (∀ rest, s.agenda = .pollReady :: rest →
      (s.hostWaiting = true ∨ s.initState = .building →
        ∃ t, step s = .next t ∧ t.agenda = s.agenda) ∧
      (s.hostWaiting = false → s.initState ≠ .building →
        step s = .next { s with agenda := rest, hostPort := .answered (.data s.status) }))

/-- 10_state.md R31, 70_reset_and_hazards.md R298: an operand write takes effect in the register at
any time, and the copies of a command in flight are left alone. -/
def Obligations.OperandWritesLeaveTheFlightAlone : Prop :=
  ∀ (s : State) (a : Access) (rest : List Event), s.agenda = .hostAck :: rest →
    s.hostPort = .pending a → a.write = true → a.size = 3 →
    (a.addr = 0x10 → step s = .next
      { s with agenda := rest, hostPort := .answered .written, op0 := a.wdata }) ∧
    (a.addr = 0x18 → step s = .next
      { s with agenda := rest, hostPort := .answered .written, op1 := a.wdata }) ∧
    (a.addr = 0x20 → step s = .next
      { s with agenda := rest, hostPort := .answered .written, op2 := a.wdata })

/-- 10_state.md R37: a write of `STATUS` clears OVERRUN with bit 4, and changes nothing else. -/
def Obligations.StatusWriteClearsOverrunOnly : Prop :=
  ∀ (s : State) (a : Access) (rest : List Event), s.agenda = .hostAck :: rest →
    s.hostPort = .pending a → a.write = true → a.size = 3 → a.addr = 0x08 →
    step s = .next { s with
      agenda := rest, hostPort := .answered .written
      overrun := s.overrun && !a.wdata.getLsbD 4 }

/-- 10_state.md R37: what can clear OVERRUN: a reset edge, or a doubleword write of `STATUS` with bit 4
set that this step performs. -/
def Obligations.OverrunIsSticky : Prop :=
  ∀ s t : State, step s = .next t → s.overrun = true → t.overrun = false →
    (∃ strap rest, s.agenda = .reset strap :: rest) ∨
    ((s.agenda = [] ∨ ∃ e ∈ [Event.hostAck, .pollBusy, .pollReady], ∃ rest, s.agenda = e :: rest) ∧
      ∃ a, s.hostPort = .pending a ∧ a.write = true ∧ a.size = 3 ∧ a.addr = 0x08 ∧
        a.wdata.getLsbD 4 = true)

/-- 70_reset_and_hazards.md R295: acceptance. That the record also keeps whether `init_state` is READY
now, which decides NOT_READY later, is the model's reading (notes/assumptions/5.md), and the port trace
that starts anew is its own field (notes/assumptions/10.md). -/
def Obligations.CommandWriteIsAccepted : Prop :=
  ∀ (s : State) (a : Access) (rest : List Event), s.agenda = .hostAck :: rest →
    s.hostPort = .pending a → a.write = true → a.size = 3 → a.addr = 0x00 → s.inflight = none →
    ∃ f t, step s = .next t ∧ t.inflight = some f ∧ f.word = a.wdata ∧
      f.op0 = s.op0 ∧ f.op1 = s.op1 ∧ f.op2 = s.op2 ∧ Fresh f ∧
      (f.ready = true ↔ s.initState = .ready) ∧
      t = { s with
        agenda := rest, hostPort := .answered .written, cmd := a.wdata
        lastOpcode := BitVec.ofNat 8 (a.wdata.toNat % 256), inflight := some f
        collabTrace := [] }

/-- 70_reset_and_hazards.md R299, 10_state.md R35: a command write during a command. -/
def Obligations.CommandWriteIsDropped : Prop :=
  ∀ (s : State) (f : InFlight) (a : Access) (rest : List Event), s.agenda = .hostAck :: rest →
    s.hostPort = .pending a → a.write = true → a.size = 3 → a.addr = 0x00 → s.inflight = some f →
    step s = .next { s with agenda := rest, hostPort := .answered .written, overrun := true }

/-- 10_state.md R36: the layout of `STATUS`, every reserved bit 0, with the nine codes of
60_exceptions.md R262 and the four of `ERR_OPERAND`. -/
def Obligations.StatusLayout : Prop :=
  (∀ s : State, s.status.toNat =
    (if s.initState = .ready then 1 else 0) + (if s.inflight.isSome then 2 else 0) +
    (if s.errCode ≠ .noError then 4 else 0) + (if s.initState = .failed then 8 else 0) +
    (if s.overrun then 16 else 0) + s.errCode.bits.toNat * 2 ^ 8 +
    s.errOperand.bits.toNat * 2 ^ 12 + s.lastOpcode.toNat * 2 ^ 16 + s.resultCount.toNat * 2 ^ 24) ∧
  ErrCode.noError.bits = 0 ∧ ErrCode.illegalCommand.bits = 1 ∧ ErrCode.notReady.bits = 2 ∧
  ErrCode.invalidFace.bits = 3 ∧ ErrCode.malformedCellId.bits = 4 ∧ ErrCode.invalidLevel.bits = 5 ∧
  ErrCode.invalidOperand.bits = 6 ∧ ErrCode.unsupportedProjection.bits = 7 ∧
  ErrCode.projectionFault.bits = 8 ∧
  ErrOperand.op0.bits = 0 ∧ ErrOperand.op1.bits = 1 ∧ ErrOperand.op2.bits = 2 ∧
  ErrOperand.cmdw.bits = 0xF

/-! ### Steps and completions -/

/-- 70_reset_and_hazards.md R305 `Complete`: a step that completes the command in flight is the
meaning of the command its word decodes to. On the `complete` event the event leaves the agenda. With
nothing scheduled, or behind a poll of the host that goes on, the agenda stays; there the block
answers an outstanding request of the host first, and a command whose response never comes waits
(notes/assumptions/2.md, 4.md and 22.md). -/
def Obligations.StepRunsTheDecodedCommand : Prop :=
  ∀ (s : State) (f : InFlight) (i : Instr), s.inflight = some f → decode f.word = .ok i →
    (∀ rest, s.agenda = .complete :: rest → step s = exec i { s with agenda := rest }) ∧
    (s.hostWaiting = false → s.stalled = false →
      (s.agenda = [] ∨ (∃ rest, s.agenda = .pollBusy :: rest) ∨
        (s.initState = .building ∧ ∃ rest, s.agenda = .pollReady :: rest)) →
      step s = exec i s)

/-- 60_exceptions.md R268, 30_encoding.md R97. -/
def Obligations.IllegalWordCompletes : Prop :=
  ∀ (s : State) (f : InFlight) (e : DecodeError) (rest : List Event), Runs s f →
    decode f.word = .error e → s.agenda = .complete :: rest →
    ∃ t, step s = .next t ∧ Fails { s with agenda := rest } t .illegalCommand .cmdw []

/-- 60_exceptions.md R269, R272: every word, legal or not, that was accepted before READY. That the
state at acceptance decides is the model's reading (notes/assumptions/5.md). -/
def Obligations.NotReadyComesFirst : Prop :=
  ∀ (s : State) (f : InFlight) (rest : List Event), s.inflight = some f → f.ready = false →
    s.agenda = .complete :: rest →
    ∃ t, step s = .next t ∧ Fails { s with agenda := rest } t .notReady .cmdw []

/-- 60_exceptions.md R260, R261, R273; 30_encoding.md R94: every command in flight completes, either
with its number of results or with an error that writes none. -/
def Obligations.EveryCommandCompletes : Prop :=
  ∀ (i : Instr) (s : State) (f : InFlight), s.inflight = some f →
    ∃ t, exec i s = .next t ∧ KeepsRest s t ∧
      ((t.errCode = .noError ∧ t.errOperand = .cmdw ∧
          (if i = .toFaceIj ∨ i = .edgeNeighbors then t.resultCount = 4
            else t.resultCount = 1 ∧ t.res1 = s.res1 ∧ t.res2 = s.res2 ∧ t.res3 = s.res3)) ∨
        (t.errCode ≠ .noError ∧ t.resultCount = 0 ∧ t.res0 = s.res0 ∧ t.res1 = s.res1 ∧
          t.res2 = s.res2 ∧ t.res3 = s.res3))

/-- Left to itself, or behind the host's `WAIT`, the block never withholds the answer to a request of
the host (70_reset_and_hazards.md R302), and completes what is in flight if the collaborator answers
(R302, the block's own move, notes/assumptions/2.md). If it never does, the command stays in flight for
good with the earlier outcome showing (R300, R305; notes/assumptions/22.md); `collabStalls` says which,
and no command stalls without it. -/
def Obligations.LeftToItselfTheBlockProgresses : Prop :=
  ∀ s : State, (s.agenda = [] ∨ ∃ rest, s.agenda = .pollBusy :: rest) →
    (s.hostWaiting = true →
      ∃ t r, step s = .next t ∧ t.hostPort = .answered r ∧ t.agenda = s.agenda) ∧
    (s.collabStalls = false → s.stalled = false) ∧
    (s.hostWaiting = false → s.inflight ≠ none → s.stalled = false →
      ∃ t, step s = .next t ∧ t.inflight = none ∧ t.agenda = s.agenda) ∧
    (s.stalled = true → ∃ t, step s = .next t ∧ t.stalled = true ∧ t.agenda = s.agenda ∧
      t.res0 = s.res0 ∧ t.res1 = s.res1 ∧ t.res2 = s.res2 ∧ t.res3 = s.res3 ∧
      t.errCode = s.errCode ∧ t.errOperand = s.errOperand ∧ t.resultCount = s.resultCount)

/-- 70_reset_and_hazards.md R305, 20_memory.md R77: however far the exchanges with the collaborator
have come, the completion is the one of R305, which makes them all at once. -/
def Obligations.ExchangesRefineCompletion : Prop :=
  ∀ (i : Instr) (s : State) (f : InFlight), s.inflight = some f → decode f.word = .ok i →
    Exchanged (f.gate (wordProg s f)) s.collabAnswer f s.collabTrace →
    exec i s = exec i { s with
      inflight := some { f with request := none, responses := [] }, collabTrace := [] }

/-- 20_memory.md R77: a command in flight with no request outstanding puts its program's next one on the
port; an outstanding one is held until the collaborator's answer is taken; a response with none
outstanding is ignored. 10_state.md R45, 20_memory.md R76: what the port carries for each request. -/
def Obligations.CollabPortExchanges : Prop :=
  (∀ (s : State) (f : InFlight) (rest : List Event), s.inflight = some f →
    (s.agenda = .collabReq :: rest →
      (∀ q k, f.request = none → (f.gate (wordProg s f)).resume f.responses = .ask q k →
        step s = .next { s with
          agenda := rest, inflight := some { f with request := some q }
          collabTrace := s.collabTrace ++ [q] }) ∧
      ((f.request ≠ none ∨ ∃ r, (f.gate (wordProg s f)).resume f.responses = .done r) →
        step s = .next { s with agenda := rest })) ∧
    (s.agenda = .collabRsp :: rest →
      (∀ q, f.request = some q →
        step s = .next { s with
          agenda := rest
          inflight := some
            { f with request := none, responses := f.responses ++ [s.collabAnswer q] } }) ∧
      (f.request = none → step s = .next { s with agenda := rest }))) ∧
  (∀ (s : State) (rest : List Event), s.inflight = none →
    (s.agenda = .collabReq :: rest ∨ s.agenda = .collabRsp :: rest) →
    step s = .next { s with agenda := rest }) ∧
  (∀ (lat lng u v : Word) (face : BitVec 3) (p : Config.Point),
    (CollabReq.ptFromLatLng lat lng).kind = 0 ∧ (CollabReq.ptFromLatLng lat lng).portFace = 0 ∧
    (CollabReq.ptFromLatLng lat lng).portArgs = (lat, lng, 0) ∧
    (CollabReq.ptFromFaceUV face u v).kind = 1 ∧ (CollabReq.ptFromFaceUV face u v).portFace = face ∧
    (CollabReq.ptFromFaceUV face u v).portArgs = (u, v, 0) ∧
    (CollabReq.faceUVFromPt p).kind = 2 ∧ (CollabReq.faceUVFromPt p).portFace = 0 ∧
    (CollabReq.faceUVFromPt p).portArgs = (p.x, p.y, p.z))

/-- 60_exceptions.md R272, for a word that decodes: a completion before any exchange that ends in an
error other than PROJECTION_FAULT (NOT_READY, an operand or the level) has asked the collaborator
nothing. -/
def Obligations.EarlyErrorsAskNothing : Prop :=
  ∀ (i : Instr) (s t : State) (f : InFlight), s.inflight = some f → Fresh f →
    exec i s = .next t → t.errCode ≠ .noError → t.errCode ≠ .projectionFault →
    t.collabTrace = s.collabTrace

/-! ### Lookup tables and projection -/

/-- 40_lut.md R129. -/
def Obligations.LutReadAnswersTheEntry : Prop :=
  ∀ (s : State) (f : InFlight), Runs s f →
    (1024 ≤ f.op0.toNat → ∀ tb, ∃ t, exec (.lutRead tb) s = .next t ∧
      Fails s t .invalidOperand .op0 []) ∧
    (f.op0.toNat < 1024 →
      (∃ t, exec (.lutRead .pos) s = .next t ∧
        Succeeds1 s t ((s.posLut.getD f.op0.toNat 0).setWidth 64) []) ∧
      (∃ t, exec (.lutRead .ij) s = .next t ∧
        Succeeds1 s t ((s.ijLut.getD f.op0.toNat 0).setWidth 64) []))

/-- 41_projection.md R141, R144. -/
def Obligations.UvToStProjects : Prop :=
  ∀ (s : State) (f : InFlight), Runs s f →
    (f64IsNaN f.op0 = true →
      ∃ t, exec .uvToSt s = .next t ∧ Fails s t .invalidOperand .op0 []) ∧
    (f64IsNaN f.op0 = false → f64NonNeg f.op0 = true →
      ∃ t, exec .uvToSt s = .next t ∧ Succeeds1 s t
        (f64Mul f64Half (f64Sqrt (f64Add f64One (f64Mul f64Three f.op0)))) []) ∧
    (f64IsNaN f.op0 = false → f64NonNeg f.op0 = false →
      ∃ t, exec .uvToSt s = .next t ∧ Succeeds1 s t
        (f64Sub f64One (f64Mul f64Half (f64Sqrt (f64Sub f64One (f64Mul f64Three f.op0))))) [])

/-- 41_projection.md R141, R146: no NaN in, no NaN out. -/
def Obligations.UvToStIsNeverNaN : Prop :=
  ∀ u : Word, f64IsNaN u = false → f64IsNaN (uvToSt u) = false

/-- 41_projection.md R145. -/
def Obligations.StToIjQuantises : Prop :=
  ∀ (s : State) (f : InFlight), Runs s f →
    (f64IsNaN f.op0 = true →
      ∃ t, exec .stToIj s = .next t ∧ Fails s t .invalidOperand .op0 []) ∧
    (f64IsNaN f.op0 = false →
      ∃ t, exec .stToIj s = .next t ∧ Succeeds1 s t (BitVec.ofNat 64 (stToIj f.op0)) [])

/-- 41_projection.md R142: the clamped floor of the exact product, infinities saturating. -/
def Obligations.StToIjIsTheClampedFloor : Prop :=
  ∀ w : Word,
    (∀ neg m e, f64Value w = .fin neg m e →
      (stToIj w : ℤ) = intClamp ⌊(2 : ℚ) ^ 30 * finValue neg m e⌋ 0 (2 ^ 30 - 1)) ∧
    (f64Value w = .inf false → stToIj w = 2 ^ 30 - 1) ∧ (f64Value w = .inf true → stToIj w = 0)

/-- 00_scope.md R12, 41_projection.md R140: `+`, `-` and `*` of finite values are the exact result rounded
once, an exact zero with the sign IEEE 754 gives it; and the one rounding answers a nearest binary64
value of that sign while the exact magnitude is below `2^1024 - 2^970`, halfway from the largest finite
value to the next power, and the infinity of that sign from there on. -/
def Obligations.RoundingIsNearest : Prop :=
  (∀ (neg : Bool) (m : Nat) (e : Int) (s1 : Bool) (m1 : Nat) (e1 : Int),
    f64Value (f64Round neg m e) = .fin s1 m1 e1 →
    s1 = neg ∧ ∀ (w : Word) (s2 : Bool) (m2 : Nat) (e2 : Int), f64Value w = .fin s2 m2 e2 →
      |finValue s1 m1 e1 - finValue neg m e| ≤ |finValue s2 m2 e2 - finValue neg m e|) ∧
  (∀ (neg : Bool) (m : Nat) (e : Int),
    (|finValue neg m e| < 2 ^ 1024 - 2 ^ 970 →
      ∃ s1 m1 e1, f64Value (f64Round neg m e) = .fin s1 m1 e1) ∧
    (2 ^ 1024 - 2 ^ 970 ≤ |finValue neg m e| → f64Round neg m e = f64Inf neg)) ∧
  (∀ (a b : Word) (s1 : Bool) (m1 : Nat) (e1 : Int) (s2 : Bool) (m2 : Nat) (e2 : Int) (x y : ℚ),
    f64Value a = .fin s1 m1 e1 → f64Value b = .fin s2 m2 e2 →
    x = finValue s1 m1 e1 → y = finValue s2 m2 e2 →
    (∃ m e, finValue (s1 ^^ s2) m e = x * y ∧ f64Mul a b = f64Round (s1 ^^ s2) m e) ∧
    (x + y ≠ 0 → ∃ neg m e, finValue neg m e = x + y ∧ f64Add a b = f64Round neg m e) ∧
    (x + y = 0 → f64Add a b = f64Zero (s1 && s2)) ∧
    (x - y ≠ 0 → ∃ neg m e, finValue neg m e = x - y ∧ f64Sub a b = f64Round neg m e) ∧
    (x - y = 0 → f64Sub a b = f64Zero (s1 && !s2)))

/-- 00_scope.md R12, "ties to even": a value halfway between two binary64 values goes to the one whose
encoding is even. -/
def Obligations.TiesGoToEven : Prop :=
  ∀ (neg : Bool) (m : Nat) (e : Int) (s1 : Bool) (m1 : Nat) (e1 : Int),
    f64Value (f64Round neg m e) = .fin s1 m1 e1 →
    ∀ (w : Word) (s2 : Bool) (m2 : Nat) (e2 : Int), f64Value w = .fin s2 m2 e2 →
      |finValue s1 m1 e1 - finValue neg m e| = |finValue s2 m2 e2 - finValue neg m e| →
      finValue s1 m1 e1 ≠ finValue s2 m2 e2 → (f64Round neg m e).getLsbD 0 = false

/-- 00_scope.md R12, 41_projection.md R140: `sqrt` of a finite value that is not negative answers the
finite binary64 value nearest to the exact root; and the integer root it rests on is the floor. -/
def Obligations.SquareRootIsNearest : Prop :=
  (∀ n : Nat, isqrt n * isqrt n ≤ n ∧ n < (isqrt n + 1) * (isqrt n + 1)) ∧
  (∀ (a : Word) (m : Nat) (e : Int), f64Value a = .fin false m e →
    ∃ m1 e1, f64Value (f64Sqrt a) = .fin false m1 e1 ∧
      ∀ (w : Word) (s2 : Bool) (m2 : Nat) (e2 : Int), f64Value w = .fin s2 m2 e2 →
        |(finValue false m1 e1 : ℝ) - √(finValue false m e : ℝ)| ≤
          |(finValue s2 m2 e2 : ℝ) - √(finValue false m e : ℝ)|)

/-! ### Encoder and decoder -/

/-- 42_encoder.md R163, its checks in their order. -/
def Obligations.FromFaceIjEncodes : Prop :=
  ∀ (s : State) (f : InFlight), Runs s f →
    (5 < f.op0.toNat → ∃ t, exec .fromFaceIj s = .next t ∧ Fails s t .invalidFace .op0 []) ∧
    (f.op0.toNat ≤ 5 → 2 ^ 30 ≤ f.op1.toNat →
      ∃ t, exec .fromFaceIj s = .next t ∧ Fails s t .invalidOperand .op1 []) ∧
    (f.op0.toNat ≤ 5 → f.op1.toNat < 2 ^ 30 → 2 ^ 30 ≤ f.op2.toNat →
      ∃ t, exec .fromFaceIj s = .next t ∧ Fails s t .invalidOperand .op2 []) ∧
    (f.op0.toNat ≤ 5 → f.op1.toNat < 2 ^ 30 → f.op2.toNat < 2 ^ 30 →
      ∃ t, exec .fromFaceIj s = .next t ∧
        Succeeds1 s t (fromFaceIj s.posLut f.op0.toNat f.op1.toNat f.op2.toNat) [])

/-- 43_decoder.md R186: a grid address survives the round trip. -/
def Obligations.GridAddressRoundTrip : Prop :=
  ∀ face i j : Nat, face ≤ 5 → i < 2 ^ 30 → j < 2 ^ 30 →
    (faceIjOrientation builtIjLut (fromFaceIj builtPosLut face i j)).face = face ∧
    (faceIjOrientation builtIjLut (fromFaceIj builtPosLut face i j)).i = i ∧
    (faceIjOrientation builtIjLut (fromFaceIj builtPosLut face i j)).j = j

/-- 43_decoder.md R186: a leaf survives the round trip, and any cell is the ancestor at its own level of
the leaf that its decoded address encodes to. -/
def Obligations.CellRoundTrip : Prop :=
  (∀ id : Word, IsCellId id → id.toNat % 2 = 1 →
    fromFaceIj builtPosLut (faceIjOrientation builtIjLut id).face
      (faceIjOrientation builtIjLut id).i (faceIjOrientation builtIjLut id).j = id) ∧
  (∀ l x : Nat, l ≤ 30 → x < 6 * 4 ^ l → ∀ g, g = faceIjOrientation builtIjLut (cellAt l x) →
    parentId (fromFaceIj builtPosLut g.face g.i g.j) l = cellAt l x)

/-- 42_encoder.md R161, R166: the position keeps clear of the face field, so every legal address
encodes to a valid leaf of its face. -/
def Obligations.EncoderGivesValidLeaves : Prop :=
  ∀ face i j : Nat, face ≤ 5 → i < 2 ^ 30 → j < 2 ^ 30 →
    encodePosition builtPosLut face i j < 2 ^ 60 ∧
    IsCellId (fromFaceIj builtPosLut face i j) ∧
    (fromFaceIj builtPosLut face i j).toNat =
      face * 2 ^ 61 + encodePosition builtPosLut face i j * 2 + 1

/-- 42_encoder.md R164, its checks in their order. -/
def Obligations.FromFaceUvEncodes : Prop :=
  ∀ (s : State) (f : InFlight), Runs s f →
    (5 < f.op0.toNat → ∃ t, exec .fromFaceUv s = .next t ∧ Fails s t .invalidFace .op0 []) ∧
    (f.op0.toNat ≤ 5 → f64IsNaN f.op1 = true →
      ∃ t, exec .fromFaceUv s = .next t ∧ Fails s t .invalidOperand .op1 []) ∧
    (f.op0.toNat ≤ 5 → f64IsNaN f.op1 = false → f64IsNaN f.op2 = true →
      ∃ t, exec .fromFaceUv s = .next t ∧ Fails s t .invalidOperand .op2 []) ∧
    (f.op0.toNat ≤ 5 → f64IsNaN f.op1 = false → f64IsNaN f.op2 = false →
      ∃ t, exec .fromFaceUv s = .next t ∧
        Succeeds1 s t (fromFaceIj s.posLut f.op0.toNat (stToIj (uvToSt f.op1))
          (stToIj (uvToSt f.op2))) [])

/-- 42_encoder.md R165, 60_exceptions.md R270, for every collaborator: the checks, the two requests in
their order, and the two ways their answer can be taken. -/
def Obligations.FromLatLngAsksTwice : Prop :=
  ∀ (s : State) (f : InFlight), Runs s f → Fresh f →
    (f64IsNaN f.op0 = true →
      ∃ t, exec .fromLatLng s = .next t ∧ Fails s t .invalidOperand .op0 []) ∧
    (f64IsNaN f.op0 = false → f64IsNaN f.op1 = true →
      ∃ t, exec .fromLatLng s = .next t ∧ Fails s t .invalidOperand .op1 []) ∧
    (f64IsNaN f.op0 = false → f64IsNaN f.op1 = false → ∀ q1 q2 r,
      q1 = CollabReq.ptFromLatLng f.op0 f.op1 →
      q2 = CollabReq.faceUVFromPt (s.collabAnswer q1).point → r = s.collabAnswer q2 →
      ((5 < r.face.toNat ∨ f64IsNaN r.a = true ∨ f64IsNaN r.b = true) →
        ∃ t, exec .fromLatLng s = .next t ∧ Fails s t .projectionFault .cmdw [q1, q2]) ∧
      (¬(5 < r.face.toNat ∨ f64IsNaN r.a = true ∨ f64IsNaN r.b = true) →
        ∃ t, exec .fromLatLng s = .next t ∧
          Succeeds1 s t (fromFaceIj s.posLut r.face.toNat (stToIj (uvToSt r.a))
            (stToIj (uvToSt r.b))) [q1, q2]))

/-- 43_decoder.md R180, R183, R185: on a valid CellId. -/
def Obligations.ToFaceIjDecodes : Prop :=
  ∀ (s : State) (f : InFlight) (l x : Nat), Runs s f → l ≤ 30 → x < 6 * 4 ^ l →
    f.op0 = cellAt l x → ∀ i j o,
    decodeChunks s.ijLut f.op0.toNat 8 0 0 (x / 4 ^ l % 2) = (i, j, o) →
    ∃ t, exec .toFaceIj s = .next t ∧
      Succeeds4 s t (BitVec.ofNat 64 (x / 4 ^ l)) (BitVec.ofNat 64 i) (BitVec.ofNat 64 j)
        (BitVec.ofNat 64 (if l % 2 = 0 ∧ l ≤ 28 then o ^^^ 1 else o)) []

/-- 43_decoder.md R184: the grid address of a cell is that of the leaf `id | 1`, and with the tables
built that leaf of a cell above the leaves touches the cell's centre. -/
def Obligations.CellDecodesToItsCentralLeaf : Prop :=
  (∀ (ijLut : Lut) (id : Word),
    (faceIjOrientation ijLut id).face = (faceIjOrientation ijLut (id ||| 1)).face ∧
    (faceIjOrientation ijLut id).i = (faceIjOrientation ijLut (id ||| 1)).i ∧
    (faceIjOrientation ijLut id).j = (faceIjOrientation ijLut (id ||| 1)).j) ∧
  (∀ l x : Nat, l < 30 → x < 6 * 4 ^ l → ∀ g, g = faceIjOrientation builtIjLut (cellAt l x) →
    (g.i % 2 ^ (30 - l) = 2 ^ (29 - l) ∨ g.i % 2 ^ (30 - l) = 2 ^ (29 - l) - 1) ∧
    (g.j % 2 ^ (30 - l) = 2 ^ (29 - l) ∨ g.j % 2 ^ (30 - l) = 2 ^ (29 - l) - 1))

/-! ### Validity and traversal -/

/-- 44_traversal.md R203, 10_state.md R22: no value is an error. -/
def Obligations.IsValidTestsTheInvariant : Prop :=
  ∀ (s : State) (f : InFlight), Runs s f →
    (IsCellId f.op0 → ∃ t, exec .isValid s = .next t ∧ Succeeds1 s t 1 []) ∧
    (¬IsCellId f.op0 → ∃ t, exec .isValid s = .next t ∧ Succeeds1 s t 0 [])

/-- 10_state.md R21, R22, R23: the valid ids are the cells of the curve, and level, index and marker
are read off them. -/
def Obligations.CellIdsAreCurveCells : Prop :=
  (∀ id : Word, IsCellId id → ∃ l ≤ 30, ∃ x < 6 * 4 ^ l, id = cellAt l x) ∧
  (∀ l x : Nat, l ≤ 30 → x < 6 * 4 ^ l →
    IsCellId (cellAt l x) ∧ levelOf (cellAt l x) = l ∧ curveIndex (cellAt l x) l = x ∧
    lsb (cellAt l x) = 2 ^ (2 * (30 - l)))

/-- 44_traversal.md R200, 60_exceptions.md R263, R264: the nine commands that take a CellId. -/
def Obligations.CellIdOperandsAreChecked : Prop :=
  ∀ (i : Instr) (s : State) (f : InFlight),
    (i ∈ [Instr.toFaceIj, .face, .level, .advance, .advanceWrap, .next, .prev, .edgeNeighbors] ∨
      ∃ l, i = .parent l) → Runs s f →
    (5 < f.op0.toNat / 2 ^ 61 → ∃ t, exec i s = .next t ∧ Fails s t .invalidFace .op0 []) ∧
    (f.op0.toNat / 2 ^ 61 ≤ 5 → ¬IsCellId f.op0 →
      ∃ t, exec i s = .next t ∧ Fails s t .malformedCellId .op0 [])

/-- 44_traversal.md R201, R204, R205. -/
def Obligations.FaceAndLevelOfACell : Prop :=
  ∀ (s : State) (f : InFlight) (l x : Nat), Runs s f → l ≤ 30 → x < 6 * 4 ^ l →
    f.op0 = cellAt l x →
    (∃ t, exec .face s = .next t ∧ Succeeds1 s t (BitVec.ofNat 64 (x / 4 ^ l)) []) ∧
    (∃ t, exec .level s = .next t ∧ Succeeds1 s t (BitVec.ofNat 64 l) [])

/-- 44_traversal.md R206, R207; 10_state.md R25: the ancestor keeps the first digits; a level above
the cell's own is INVALID_LEVEL, 31 to 63 included. -/
def Obligations.ParentIsTheAncestor : Prop :=
  ∀ (s : State) (f : InFlight) (l x l' : Nat), Runs s f → l ≤ 30 → x < 6 * 4 ^ l →
    f.op0 = cellAt l x →
    (l' ≤ l → ∃ t, exec (.parent l') s = .next t ∧
      Succeeds1 s t (cellAt l' (x / 4 ^ (l - l'))) []) ∧
    (l < l' → ∃ t, exec (.parent l') s = .next t ∧ Fails s t .invalidLevel .cmdw [])

/-- 44_traversal.md R208, R210: the index clamped to `[0, N]`, `N` being the End sentinel. -/
def Obligations.AdvanceClampsTheIndex : Prop :=
  ∀ (s : State) (f : InFlight) (l x : Nat), Runs s f → l ≤ 30 → x < 6 * 4 ^ l →
    f.op0 = cellAt l x →
    ∃ t, exec .advance s = .next t ∧
      Succeeds1 s t (cellAt l (max 0 (min ((x : Int) + f.op1.toInt) (6 * 4 ^ l))).toNat) []

/-- 44_traversal.md R211, R212: the index modulo `N`. -/
def Obligations.AdvanceWrapWrapsTheIndex : Prop :=
  ∀ (s : State) (f : InFlight) (l x : Nat), Runs s f → l ≤ 30 → x < 6 * 4 ^ l →
    f.op0 = cellAt l x →
    ∃ t, exec .advanceWrap s = .next t ∧
      Succeeds1 s t (cellAt l (((x : Int) + f.op1.toInt) % (6 * 4 ^ l)).toNat) []

/-- 44_traversal.md R213, R214: one cell on or back, around the ends of the curve. -/
def Obligations.NextAndPrevStepTheIndex : Prop :=
  ∀ (s : State) (f : InFlight) (l x : Nat), Runs s f → l ≤ 30 → x < 6 * 4 ^ l →
    f.op0 = cellAt l x →
    (∃ t, exec .next s = .next t ∧
      Succeeds1 s t (cellAt l (if x + 1 = 6 * 4 ^ l then 0 else x + 1)) []) ∧
    (∃ t, exec .prev s = .next t ∧
      Succeeds1 s t (cellAt l (if x = 0 then 6 * 4 ^ l - 1 else x - 1)) [])

/-! ### Face wrap and neighbours -/

/-- 45_neighbors.md R244, R246, for every collaborator. -/
def Obligations.FromFaceIjWrapAsksTwice : Prop :=
  ∀ (s : State) (f : InFlight), Runs s f → Fresh f →
    (5 < f.op0.toNat → ∃ t, exec .fromFaceIjWrap s = .next t ∧ Fails s t .invalidFace .op0 []) ∧
    (f.op0.toNat ≤ 5 →
      (∀ v, wrapLeaf s.collabAnswer s.posLut f.op0.toNat f.op1.toInt f.op2.toInt = some v →
        ∃ t, exec .fromFaceIjWrap s = .next t ∧
          Succeeds1 s t v (wrapTraffic s.collabAnswer f.op0.toNat f.op1.toInt f.op2.toInt)) ∧
      (wrapLeaf s.collabAnswer s.posLut f.op0.toNat f.op1.toInt f.op2.toInt = none →
        ∃ t, exec .fromFaceIjWrap s = .next t ∧
          Fails s t .projectionFault .cmdw
            (wrapTraffic s.collabAnswer f.op0.toNat f.op1.toInt f.op2.toInt)))

/-- 45_neighbors.md R241, R242, R243: exact on the face, exactly the limit off it. -/
def Obligations.WrapCoordinatesAreExact : Prop :=
  ∀ i : Int,
    (0 ≤ i → i < 2 ^ 30 → ∃ neg m e, f64Value (wrapUV (wrapClamp i)) = .fin neg m e ∧
      finValue neg m e = ((2 * i + 1 - 2 ^ 30 : Int) : ℚ) / 2 ^ 30) ∧
    (i < 0 → wrapUV (wrapClamp i) = 0xBFF0000000000001) ∧
    (2 ^ 30 ≤ i → wrapUV (wrapClamp i) = 0x3FF0000000000001)

/-- 45_neighbors.md R247, R248, for every collaborator: the four candidates in their order, the traffic
of each, and the stop at the first one that faults. -/
def Obligations.EdgeNeighborsAnswersFourCells : Prop :=
  ∀ (s : State) (f : InFlight) (l x : Nat), Runs s f → Fresh f → l ≤ 30 → x < 6 * 4 ^ l →
    f.op0 = cellAt l x → ∀ (g : GridAddress) (i j z : Int),
    g = faceIjOrientation s.ijLut f.op0 → i = g.i → j = g.j → z = 2 ^ (30 - l) →
    ∀ c0 c1 c2 c3 q0 q1 q2 q3,
    c0 = candidateLeaf s.collabAnswer s.posLut g.face i (j - z) (j - z ≥ 0) →
    c1 = candidateLeaf s.collabAnswer s.posLut g.face (i + z) j (i + z < 2 ^ 30) →
    c2 = candidateLeaf s.collabAnswer s.posLut g.face i (j + z) (j + z < 2 ^ 30) →
    c3 = candidateLeaf s.collabAnswer s.posLut g.face (i - z) j (i - z ≥ 0) →
    q0 = candidateTraffic s.collabAnswer g.face i (j - z) (j - z ≥ 0) →
    q1 = candidateTraffic s.collabAnswer g.face (i + z) j (i + z < 2 ^ 30) →
    q2 = candidateTraffic s.collabAnswer g.face i (j + z) (j + z < 2 ^ 30) →
    q3 = candidateTraffic s.collabAnswer g.face (i - z) j (i - z ≥ 0) →
    (∀ n0 n1 n2 n3, c0 = some n0 → c1 = some n1 → c2 = some n2 → c3 = some n3 →
      ∃ t, exec .edgeNeighbors s = .next t ∧
        Succeeds4 s t (parentId n0 l) (parentId n1 l) (parentId n2 l) (parentId n3 l)
          (q0 ++ q1 ++ q2 ++ q3)) ∧
    (c0 = none → ∃ t, exec .edgeNeighbors s = .next t ∧ Fails s t .projectionFault .cmdw q0) ∧
    (c0 ≠ none → c1 = none →
      ∃ t, exec .edgeNeighbors s = .next t ∧ Fails s t .projectionFault .cmdw (q0 ++ q1)) ∧
    (c0 ≠ none → c1 ≠ none → c2 = none →
      ∃ t, exec .edgeNeighbors s = .next t ∧ Fails s t .projectionFault .cmdw (q0 ++ q1 ++ q2)) ∧
    (c0 ≠ none → c1 ≠ none → c2 ≠ none → c3 = none →
      ∃ t, exec .edgeNeighbors s = .next t ∧
        Fails s t .projectionFault .cmdw (q0 ++ q1 ++ q2 ++ q3))

/-- 45_neighbors.md R249, its first property, whatever the collaborator returns: with the tables
built, every neighbour is a cell of the same level. -/
def Obligations.NeighborsKeepTheLevel : Prop :=
  ∀ (s t : State) (f : InFlight) (l x : Nat), Runs s f → l ≤ 30 → x < 6 * 4 ^ l →
    f.op0 = cellAt l x → s.posLut = builtPosLut → s.ijLut = builtIjLut →
    exec .edgeNeighbors s = .next t → t.errCode = .noError →
    ∀ r ∈ [t.res0, t.res1, t.res2, t.res3], ∃ y < 6 * 4 ^ l, r = cellAt l y

/-! ### Invariants of every step -/

/-- 10_state.md R39, R40; 40_lut.md R128; 41_projection.md R147: the tables are built whenever READY,
and READY only under the supported strap. -/
def Obligations.StepKeepsTablesSound : Prop :=
  ∀ s t : State, TablesSound s → step s = .next t → TablesSound t

/-- 10_state.md R35, R41; 20_memory.md R77: the command in flight is the one `CMD` shows, and its
exchanges are the first of its program's, in order and answered by the collaborator. -/
def Obligations.StepKeepsCommandSound : Prop :=
  ∀ s t : State, CommandSound s → step s = .next t → CommandSound t

/-- 60_exceptions.md R261, R262, R265, R269; 10_state.md R36: the outcome fields stay consistent, and
nothing is written to a result register before READY. -/
def Obligations.StepKeepsOutcomeSound : Prop :=
  ∀ s t : State, CommandSound s → OutcomeSound s → step s = .next t → OutcomeSound t
end

