-- ==== Sys2Proof/Laws/Prog.lean ====
section
/-!
SUPPORT. A program resumed from the answers it has had goes on as it would have: what has been
exchanged before a completion changes neither its result nor the requests made in all.
-/

namespace Sys2Proof.Machine

variable (ans : CollabReq → CollabRsp)

@[simp] theorem Prog.resume_nil (p : Prog) : p.resume [] = p := by cases p <;> rfl

@[simp] theorem Prog.resume_done (r : CmdResult) (rs : List CollabRsp) :
    (Prog.done r).resume rs = .done r := by cases rs <;> rfl

@[simp] theorem Prog.resume_ask_cons (q : CollabReq) (k : CollabRsp → Prog) (r : CollabRsp)
    (rs : List CollabRsp) : (Prog.ask q k).resume (r :: rs) = (k r).resume rs := rfl

@[simp] theorem Prog.run_done (r : CmdResult) : (Prog.done r).run ans = r := rfl

@[simp] theorem Prog.run_ask (q : CollabReq) (k : CollabRsp → Prog) :
    (Prog.ask q k).run ans = (k (ans q)).run ans := rfl

@[simp] theorem Prog.requests_done (r : CmdResult) : (Prog.done r).requests ans = [] := rfl

@[simp] theorem Prog.requests_ask (q : CollabReq) (k : CollabRsp → Prog) :
    (Prog.ask q k).requests ans = q :: (k (ans q)).requests ans := rfl

@[simp] theorem raise_resume (e : ErrCode) (a : ErrOperand) (rs : List CollabRsp) :
    (raise e a).resume rs = raise e a := Prog.resume_done _ rs

@[simp] theorem raise_run (e : ErrCode) (a : ErrOperand) : (raise e a).run ans = .error e a := rfl

@[simp] theorem raise_requests (e : ErrCode) (a : ErrOperand) : (raise e a).requests ans = [] := rfl

@[simp] theorem return1_resume (v : Word) (rs : List CollabRsp) :
    (return1 v).resume rs = return1 v := Prog.resume_done _ rs

@[simp] theorem return1_run (v : Word) : (return1 v).run ans = .one v := rfl

@[simp] theorem return1_requests (v : Word) : (return1 v).requests ans = [] := rfl

/-- Resuming with the first `n` answers leaves a program with the same result. -/
theorem Prog.run_resume (p : Prog) (n : Nat) :
    (p.resume (((p.requests ans).map ans).take n)).run ans = p.run ans := by
  induction p generalizing n with
  | done r => simp
  | ask q k ih => cases n <;> simp [ih]

/-- Resuming with the first `n` answers leaves a program with the remaining requests. -/
theorem Prog.requests_resume (p : Prog) (n : Nat) :
    (p.resume (((p.requests ans).map ans).take n)).requests ans = (p.requests ans).drop n := by
  induction p generalizing n with
  | done r => simp
  | ask q k ih => cases n <;> simp [ih]

theorem Prog.resume_append (p : Prog) (rs rs' : List CollabRsp) :
    p.resume (rs ++ rs') = (p.resume rs).resume rs' := by
  induction rs generalizing p with
  | nil => simp
  | cons r rs ih => cases p <;> simp [ih]

@[simp] theorem gate_ready (f : InFlight) (p : Prog) (h : f.ready = true) : f.gate p = p := by
  simp [InFlight.gate, h]

@[simp] theorem gate_notReady (f : InFlight) (p : Prog) (h : f.ready = false) :
    f.gate p = raise .notReady .cmdw := by
  simp [InFlight.gate, h]

end Sys2Proof.Machine
end

