-- ==== Sys2Proof/Laws/State.lean ====
section
/-!
SUPPORT. Beside State: what each update of it does to each field, so that no proof unfolds a record
update.
-/

namespace Sys2Proof.Machine

section Completion

variable (s : State) (r : CmdResult)

@[simp] theorem applyResult_cmd : (s.applyResult r).cmd = s.cmd := by cases r <;> rfl
@[simp] theorem applyResult_op0 : (s.applyResult r).op0 = s.op0 := by cases r <;> rfl
@[simp] theorem applyResult_op1 : (s.applyResult r).op1 = s.op1 := by cases r <;> rfl
@[simp] theorem applyResult_op2 : (s.applyResult r).op2 = s.op2 := by cases r <;> rfl
@[simp] theorem applyResult_overrun : (s.applyResult r).overrun = s.overrun := by cases r <;> rfl
@[simp] theorem applyResult_lastOpcode : (s.applyResult r).lastOpcode = s.lastOpcode := by cases r <;> rfl
@[simp] theorem applyResult_initState : (s.applyResult r).initState = s.initState := by cases r <;> rfl
@[simp] theorem applyResult_projMode : (s.applyResult r).projMode = s.projMode := by cases r <;> rfl
@[simp] theorem applyResult_posLut : (s.applyResult r).posLut = s.posLut := by cases r <;> rfl
@[simp] theorem applyResult_ijLut : (s.applyResult r).ijLut = s.ijLut := by cases r <;> rfl
@[simp] theorem applyResult_hostPort : (s.applyResult r).hostPort = s.hostPort := by cases r <;> rfl
@[simp] theorem applyResult_agenda : (s.applyResult r).agenda = s.agenda := by cases r <;> rfl
@[simp] theorem applyResult_collabTable : (s.applyResult r).collabTable = s.collabTable := by cases r <;> rfl
@[simp] theorem applyResult_collabStalls : (s.applyResult r).collabStalls = s.collabStalls := by cases r <;> rfl
@[simp] theorem applyResult_collabTrace : (s.applyResult r).collabTrace = s.collabTrace := by cases r <;> rfl
@[simp] theorem applyResult_inflight : (s.applyResult r).inflight = none := by cases r <;> rfl

variable (r0 r1 r2 r3 : Word) (e : ErrCode) (a : ErrOperand)

@[simp] theorem applyResult_one_res0 : (s.applyResult (.one r0)).res0 = r0 := rfl
@[simp] theorem applyResult_one_res1 : (s.applyResult (.one r0)).res1 = s.res1 := rfl
@[simp] theorem applyResult_one_res2 : (s.applyResult (.one r0)).res2 = s.res2 := rfl
@[simp] theorem applyResult_one_res3 : (s.applyResult (.one r0)).res3 = s.res3 := rfl
@[simp] theorem applyResult_one_errCode : (s.applyResult (.one r0)).errCode = .noError := rfl
@[simp] theorem applyResult_one_errOperand : (s.applyResult (.one r0)).errOperand = .cmdw := rfl
@[simp] theorem applyResult_one_resultCount : (s.applyResult (.one r0)).resultCount = 1 := rfl
@[simp] theorem applyResult_four_res0 : (s.applyResult (.four r0 r1 r2 r3)).res0 = r0 := rfl
@[simp] theorem applyResult_four_res1 : (s.applyResult (.four r0 r1 r2 r3)).res1 = r1 := rfl
@[simp] theorem applyResult_four_res2 : (s.applyResult (.four r0 r1 r2 r3)).res2 = r2 := rfl
@[simp] theorem applyResult_four_res3 : (s.applyResult (.four r0 r1 r2 r3)).res3 = r3 := rfl
@[simp] theorem applyResult_four_errCode : (s.applyResult (.four r0 r1 r2 r3)).errCode = .noError := rfl
@[simp] theorem applyResult_four_errOperand : (s.applyResult (.four r0 r1 r2 r3)).errOperand = .cmdw := rfl
@[simp] theorem applyResult_four_resultCount : (s.applyResult (.four r0 r1 r2 r3)).resultCount = 4 := rfl
@[simp] theorem applyResult_error_res0 : (s.applyResult (.error e a)).res0 = s.res0 := rfl
@[simp] theorem applyResult_error_res1 : (s.applyResult (.error e a)).res1 = s.res1 := rfl
@[simp] theorem applyResult_error_res2 : (s.applyResult (.error e a)).res2 = s.res2 := rfl
@[simp] theorem applyResult_error_res3 : (s.applyResult (.error e a)).res3 = s.res3 := rfl
@[simp] theorem applyResult_error_errCode : (s.applyResult (.error e a)).errCode = e := rfl
@[simp] theorem applyResult_error_errOperand : (s.applyResult (.error e a)).errOperand = a := rfl
@[simp] theorem applyResult_error_resultCount : (s.applyResult (.error e a)).resultCount = 0 := rfl

end Completion

section Acceptance

variable (s : State) (w : Word)

@[simp] theorem accept_cmd : (s.accept w).cmd = w := rfl
@[simp] theorem accept_op0 : (s.accept w).op0 = s.op0 := rfl
@[simp] theorem accept_op1 : (s.accept w).op1 = s.op1 := rfl
@[simp] theorem accept_op2 : (s.accept w).op2 = s.op2 := rfl
@[simp] theorem accept_res0 : (s.accept w).res0 = s.res0 := rfl
@[simp] theorem accept_res1 : (s.accept w).res1 = s.res1 := rfl
@[simp] theorem accept_res2 : (s.accept w).res2 = s.res2 := rfl
@[simp] theorem accept_res3 : (s.accept w).res3 = s.res3 := rfl
@[simp] theorem accept_overrun : (s.accept w).overrun = s.overrun := rfl
@[simp] theorem accept_errCode : (s.accept w).errCode = s.errCode := rfl
@[simp] theorem accept_errOperand : (s.accept w).errOperand = s.errOperand := rfl
@[simp] theorem accept_lastOpcode : (s.accept w).lastOpcode = opcodeField w := rfl
@[simp] theorem accept_resultCount : (s.accept w).resultCount = s.resultCount := rfl
@[simp] theorem accept_initState : (s.accept w).initState = s.initState := rfl
@[simp] theorem accept_projMode : (s.accept w).projMode = s.projMode := rfl
@[simp] theorem accept_posLut : (s.accept w).posLut = s.posLut := rfl
@[simp] theorem accept_ijLut : (s.accept w).ijLut = s.ijLut := rfl
@[simp] theorem accept_inflight : (s.accept w).inflight = some
      { word := w, op0 := s.op0, op1 := s.op1, op2 := s.op2, ready := s.isReady
        request := none, responses := [] } := rfl
@[simp] theorem accept_hostPort : (s.accept w).hostPort = s.hostPort := rfl
@[simp] theorem accept_agenda : (s.accept w).agenda = s.agenda := rfl
@[simp] theorem accept_collabTable : (s.accept w).collabTable = s.collabTable := rfl
@[simp] theorem accept_collabStalls : (s.accept w).collabStalls = s.collabStalls := rfl
@[simp] theorem accept_collabTrace : (s.accept w).collabTrace = [] := rfl

end Acceptance

section Initialisation

variable (s : State) (strap : BitVec 2)

@[simp] theorem buildTables_cmd : (s.buildTables).cmd = s.cmd := rfl
@[simp] theorem buildTables_op0 : (s.buildTables).op0 = s.op0 := rfl
@[simp] theorem buildTables_op1 : (s.buildTables).op1 = s.op1 := rfl
@[simp] theorem buildTables_op2 : (s.buildTables).op2 = s.op2 := rfl
@[simp] theorem buildTables_res0 : (s.buildTables).res0 = s.res0 := rfl
@[simp] theorem buildTables_res1 : (s.buildTables).res1 = s.res1 := rfl
@[simp] theorem buildTables_res2 : (s.buildTables).res2 = s.res2 := rfl
@[simp] theorem buildTables_res3 : (s.buildTables).res3 = s.res3 := rfl
@[simp] theorem buildTables_overrun : (s.buildTables).overrun = s.overrun := rfl
@[simp] theorem buildTables_errCode : (s.buildTables).errCode = s.errCode := rfl
@[simp] theorem buildTables_errOperand : (s.buildTables).errOperand = s.errOperand := rfl
@[simp] theorem buildTables_lastOpcode : (s.buildTables).lastOpcode = s.lastOpcode := rfl
@[simp] theorem buildTables_resultCount : (s.buildTables).resultCount = s.resultCount := rfl
@[simp] theorem buildTables_initState : (s.buildTables).initState = .ready := rfl
@[simp] theorem buildTables_projMode : (s.buildTables).projMode = s.projMode := rfl
@[simp] theorem buildTables_posLut : (s.buildTables).posLut = builtPosLut := by
  simp only [State.buildTables]
@[simp] theorem buildTables_ijLut : (s.buildTables).ijLut = builtIjLut := by
  simp only [State.buildTables]
@[simp] theorem buildTables_inflight : (s.buildTables).inflight = s.inflight := rfl
@[simp] theorem buildTables_hostPort : (s.buildTables).hostPort = s.hostPort := rfl
@[simp] theorem buildTables_agenda : (s.buildTables).agenda = s.agenda := rfl
@[simp] theorem buildTables_collabTable : (s.buildTables).collabTable = s.collabTable := rfl
@[simp] theorem buildTables_collabStalls : (s.buildTables).collabStalls = s.collabStalls := rfl
@[simp] theorem buildTables_collabTrace : (s.buildTables).collabTrace = s.collabTrace := rfl

@[simp] theorem resetTo_cmd : (s.resetTo strap).cmd = 0 := rfl
@[simp] theorem resetTo_op0 : (s.resetTo strap).op0 = 0 := rfl
@[simp] theorem resetTo_op1 : (s.resetTo strap).op1 = 0 := rfl
@[simp] theorem resetTo_op2 : (s.resetTo strap).op2 = 0 := rfl
@[simp] theorem resetTo_res0 : (s.resetTo strap).res0 = 0 := rfl
@[simp] theorem resetTo_res1 : (s.resetTo strap).res1 = 0 := rfl
@[simp] theorem resetTo_res2 : (s.resetTo strap).res2 = 0 := rfl
@[simp] theorem resetTo_res3 : (s.resetTo strap).res3 = 0 := rfl
@[simp] theorem resetTo_overrun : (s.resetTo strap).overrun = false := rfl
@[simp] theorem resetTo_errCode : (s.resetTo strap).errCode = .noError := rfl
@[simp] theorem resetTo_errOperand : (s.resetTo strap).errOperand = .cmdw := rfl
@[simp] theorem resetTo_lastOpcode : (s.resetTo strap).lastOpcode = 0 := rfl
@[simp] theorem resetTo_resultCount : (s.resetTo strap).resultCount = 0 := rfl
@[simp] theorem resetTo_initState : (s.resetTo strap).initState = .building := rfl
@[simp] theorem resetTo_projMode : (s.resetTo strap).projMode = strap := rfl
@[simp] theorem resetTo_posLut : (s.resetTo strap).posLut = unbuiltLut := rfl
@[simp] theorem resetTo_ijLut : (s.resetTo strap).ijLut = unbuiltLut := rfl
@[simp] theorem resetTo_inflight : (s.resetTo strap).inflight = none := rfl
@[simp] theorem resetTo_hostPort : (s.resetTo strap).hostPort = .idle := rfl
@[simp] theorem resetTo_agenda : (s.resetTo strap).agenda = s.agenda := rfl
@[simp] theorem resetTo_collabTable : (s.resetTo strap).collabTable = s.collabTable := rfl
@[simp] theorem resetTo_collabStalls : (s.resetTo strap).collabStalls = s.collabStalls := rfl
@[simp] theorem resetTo_collabTrace : (s.resetTo strap).collabTrace = [] := rfl

theorem initDone_building (h : s.initState = .building) (hm : s.projMode = 0) :
    s.initDone = s.buildTables := by simp [State.initDone, h, hm]

theorem initDone_failing (h : s.initState = .building) (hm : s.projMode ≠ 0) :
    s.initDone =
      { s with
        initState := .failed, errCode := .unsupportedProjection, errOperand := .cmdw } := by
  simp only [State.initDone, h, if_neg hm]

theorem initDone_settled (h : s.initState ≠ .building) : s.initDone = s := by
  unfold State.initDone; split <;> simp_all

end Initialisation

end Sys2Proof.Machine
end

