-- ==== Sys2Proof/Laws/Exec.lean ====
section
/-!
SUPPORT. What a meaning can do: every one completes its command's program, so one lemma per kind of
ending says all of it.
-/

namespace Sys2Proof.Machine

/-- Every meaning is the completion of its command's program. -/
theorem exec_eq_complete (i : Instr) (s : State) : exec i s = complete (commandProg i s) s := by
  cases i <;> rfl

theorem complete_idle (p : InFlight → Prog) {s : State} (h : s.inflight = none) :
    complete p s = .fault .noCommandInFlight := by simp [complete, h]

theorem complete_busy (p : InFlight → Prog) {s : State} {f : InFlight} (h : s.inflight = some f) :
    complete p s = .next (s.finish f (f.gate (p f))) := by simp [complete, h]

theorem complete_runs (p : InFlight → Prog) {s : State} {f : InFlight} (h : Runs s f) :
    complete p s = .next (s.finish f (p f)) := by simp [complete_busy p h.1, h.2]

/-- A completion keeps everything but the outcome, whatever its program. -/
theorem finish_keepsRest (s : State) (f : InFlight) (p : Prog) : KeepsRest s (s.finish f p) := by
  constructor <;> simp [State.finish]

/-- A program that returns one value without asking. -/
theorem finish_return1 (s : State) (f : InFlight) (v : Word) :
    Succeeds1 s (s.finish f (return1 v)) v [] := by
  refine ⟨finish_keepsRest s f _, ?_, ?_, ?_, ?_, ?_, ?_, ?_, ?_⟩ <;> simp [State.finish]

/-- A program that raises an error without asking. -/
theorem finish_raise (s : State) (f : InFlight) (e : ErrCode) (a : ErrOperand) :
    Fails s (s.finish f (raise e a)) e a [] := by
  refine ⟨finish_keepsRest s f _, ?_, ?_, ?_, ?_, ?_, ?_, ?_, ?_⟩ <;> simp [State.finish]

/-- A program that returns four values without asking. -/
theorem finish_four (s : State) (f : InFlight) (r0 r1 r2 r3 : Word) :
    Succeeds4 s (s.finish f (.done (.four r0 r1 r2 r3))) r0 r1 r2 r3 [] := by
  refine ⟨finish_keepsRest s f _, ?_, ?_, ?_, ?_, ?_, ?_, ?_, ?_⟩ <;> simp [State.finish]

/-- A completion with no exchange begun, by how its program ends. -/
theorem finish_fresh_one {s : State} {f : InFlight} {p : Prog} {v : Word} (hf : Fresh f)
    (hr : p.run s.collabAnswer = .one v) :
    Succeeds1 s (s.finish f p) v (p.requests s.collabAnswer) := by
  refine ⟨finish_keepsRest s f _, ?_, ?_, ?_, ?_, ?_, ?_, ?_, ?_⟩ <;>
    simp [State.finish, hf.1, hf.2, hr]

theorem finish_fresh_four {s : State} {f : InFlight} {p : Prog} {r0 r1 r2 r3 : Word} (hf : Fresh f)
    (hr : p.run s.collabAnswer = .four r0 r1 r2 r3) :
    Succeeds4 s (s.finish f p) r0 r1 r2 r3 (p.requests s.collabAnswer) := by
  refine ⟨finish_keepsRest s f _, ?_, ?_, ?_, ?_, ?_, ?_, ?_, ?_⟩ <;>
    simp [State.finish, hf.1, hf.2, hr]

theorem finish_fresh_error {s : State} {f : InFlight} {p : Prog} {e : ErrCode} {a : ErrOperand}
    (hf : Fresh f) (hr : p.run s.collabAnswer = .error e a) :
    Fails s (s.finish f p) e a (p.requests s.collabAnswer) := by
  refine ⟨finish_keepsRest s f _, ?_, ?_, ?_, ?_, ?_, ?_, ?_, ?_⟩ <;>
    simp [State.finish, hf.1, hf.2, hr]

/-- The block's own next move, case by case. -/
theorem completeInFlight_cases (s : State) :
    (s.inflight = none ∧ completeInFlight s = .next s) ∨
    ∃ f, s.inflight = some f ∧
      completeInFlight s = .next (s.finish f (f.gate (wordProg s f))) := by
  cases h : s.inflight with
  | none => exact .inl ⟨rfl, by simp [completeInFlight, h]⟩
  | some f =>
    refine .inr ⟨f, rfl, ?_⟩
    simp only [completeInFlight, h, wordProg]
    cases decode f.word with
    | ok i => simp [exec_eq_complete, complete_busy _ h]
    | error e => simp [complete_busy _ h]

/-- Every way a step can go from `s`, the event it takes aside: nothing, a completion, initialisation,
a reset, or a move at one of the ports (70_reset_and_hazards.md R305). -/
inductive Move (s : State) : State → Prop
  | stay : Move s s
  | finish (f : InFlight) (h : s.inflight = some f) :
      Move s (s.finish f (f.gate (wordProg s f)))
  | init : Move s s.initDone
  | reset (strap : BitVec 2) : Move s (s.resetTo strap)
  | raiseHost (a : Access) : Move s (s.raiseHost a)
  | answerHost : Move s s.answerHost
  | issueCollab : Move s s.issueCollab
  | takeRsp : Move s s.takeRsp
  | serve : Move s (s.serve statusRead)

theorem completeInFlight_move (s : State) : ∃ t, completeInFlight s = .next t ∧ Move s t := by
  rcases completeInFlight_cases s with ⟨-, h⟩ | ⟨f, hf, h⟩
  · exact ⟨s, h, .stay⟩
  · exact ⟨_, h, .finish f hf⟩

theorem ownMove_move (s : State) : ∃ t, ownMove s = .next t ∧ Move s t := by
  unfold ownMove
  split
  · exact ⟨_, rfl, .answerHost⟩
  · split
    · exact ⟨_, rfl, .issueCollab⟩
    · split
      · exact completeInFlight_move s
      · exact ⟨_, rfl, .init⟩

theorem pollStatus_move (b : Bool) (rest : List Event) (s : State) :
    ∃ t, pollStatus b rest s = .next t ∧ ∃ l, Move { s with agenda := l } t := by
  unfold pollStatus
  split
  · obtain ⟨t, h, hm⟩ := ownMove_move s
    exact ⟨t, h, s.agenda, hm⟩
  · exact ⟨_, rfl, rest, .serve⟩

/-- A step always answers a next state, and it is one of the moves. -/
theorem step_move (s : State) : ∃ t, step s = .next t ∧ ∃ l, Move { s with agenda := l } t := by
  unfold step
  cases s.agenda with
  | nil =>
    obtain ⟨t, h, hm⟩ := ownMove_move s
    exact ⟨t, h, s.agenda, hm⟩
  | cons e rest =>
    cases e with
    | reset strap => exact ⟨_, rfl, rest, .reset strap⟩
    | initDone => exact ⟨_, rfl, rest, .init⟩
    | hostReq a => exact ⟨_, rfl, rest, .raiseHost a⟩
    | hostAck => exact ⟨_, rfl, rest, .answerHost⟩
    | collabReq => exact ⟨_, rfl, rest, .issueCollab⟩
    | collabRsp => exact ⟨_, rfl, rest, .takeRsp⟩
    | complete =>
      obtain ⟨t, h, hm⟩ := completeInFlight_move { s with agenda := rest }
      exact ⟨t, h, rest, hm⟩
    | pollBusy => exact pollStatus_move _ rest s
    | pollReady => exact pollStatus_move _ rest s

end Sys2Proof.Machine
end

