-- ==== Sys2Proof/Laws/Lut.lean ====
section
/-!
SUPPORT. The lookup-table space: every operation keeps a table's 1024 entries, and reads and writes
of its entries meet the usual laws.
-/

namespace Sys2Proof.Machine

theorem lutWrite_wf {t : Lut} (h : lutWf t) (k v : Nat) : lutWf (lutWrite t k v) := by
  simpa [lutWf, lutWrite] using h

theorem builtPosLut_wf : lutWf builtPosLut := by simp [lutWf, builtPosLut]

theorem builtIjLut_wf : lutWf builtIjLut := by simp [lutWf, builtIjLut]

theorem unbuiltLut_wf : lutWf unbuiltLut := by simp [lutWf, unbuiltLut]

theorem reset_luts_wf : lutWf State.reset.posLut ∧ lutWf State.reset.ijLut :=
  ⟨unbuiltLut_wf, unbuiltLut_wf⟩

theorem foldl_lutWrite_wf (ws : List LeafWrite) (k v : LeafWrite → Nat) :
    ∀ {t : Lut}, lutWf t → lutWf (ws.foldl (fun t w => lutWrite t (k w) (v w)) t) := by
  induction ws with
  | nil => exact id
  | cons w ws ih => exact fun h => ih (lutWrite_wf h _ _)

theorem runBuildPos_wf {t : Lut} (h : lutWf t) : lutWf (runBuildPos t) := foldl_lutWrite_wf _ _ _ h

theorem runBuildIj_wf {t : Lut} (h : lutWf t) : lutWf (runBuildIj t) := foldl_lutWrite_wf _ _ _ h

/-- An entry is ten bits wide (40_lut.md R120). -/
theorem lutRead_lt (t : Lut) (k : Nat) : lutRead t k < 1024 := (t.getD k 0).isLt

theorem lutRead_lutWrite_same {t : Lut} (h : lutWf t) {k v : Nat} (hk : k < 1024) (hv : v < 1024) :
    lutRead (lutWrite t k v) k = v := by
  have hk' : k < t.length := by rw [h]; exact hk
  simp [lutRead, lutWrite, hk', Nat.mod_eq_of_lt hv]

theorem lutRead_lutWrite_other (t : Lut) {k k' : Nat} (v : Nat) (h : k' ≠ k) :
    lutRead (lutWrite t k v) k' = lutRead t k' := by
  simp [lutRead, lutWrite, List.getElem?_set_ne h.symm]

theorem lutRead_builtPosLut {k : Nat} (hk : k < 1024) :
    lutRead builtPosLut k = posEntry (k >>> 6) ((k >>> 2) &&& 15) (k &&& 3) % 1024 := by
  simp [lutRead, builtPosLut, Config.lutSize, hk]

theorem lutRead_builtIjLut {k : Nat} (hk : k < 1024) :
    lutRead builtIjLut k = ijEntry (k >>> 2) (k &&& 3) % 1024 := by
  simp [lutRead, builtIjLut, Config.lutSize, hk]

end Sys2Proof.Machine
end

