-- ==== Sys2Proof/Laws/PerInstr.lean ====
section
/-!
SUPPORT. One lemma per command: its encoded word meets the match and mask of its own row of
spec/opcode_table.json (30_encoding.md R98).
-/

namespace Sys2Proof.Laws.RowMatch

/-- The word of a well-formed command lies in its table row: `w & mask = match`. -/
def Statement (i : Instr) : Prop := i.wf = true → encode i &&& i.rowMask = i.rowMatch

theorem lutRead (t : Table) : Statement (.lutRead t) := by
  cases t <;> simp only [Statement] <;> decide

theorem uvToSt : Statement .uvToSt := by simp only [Statement]; decide

theorem stToIj : Statement .stToIj := by simp only [Statement]; decide

theorem fromFaceIj : Statement .fromFaceIj := by simp only [Statement]; decide

theorem fromFaceUv : Statement .fromFaceUv := by simp only [Statement]; decide

theorem fromLatLng : Statement .fromLatLng := by simp only [Statement]; decide

theorem toFaceIj : Statement .toFaceIj := by simp only [Statement]; decide

theorem isValid : Statement .isValid := by simp only [Statement]; decide

theorem face : Statement .face := by simp only [Statement]; decide

theorem level : Statement .level := by simp only [Statement]; decide

theorem parent (l : Nat) : Statement (.parent l) := by
  intro h
  have hl : l < 64 := by simpa [Instr.wf] using h
  have all : ∀ l < 64, encode (.parent l) &&& Instr.rowMask (.parent l) = Instr.rowMatch (.parent l) := by
    decide
  exact all l hl

theorem advance : Statement .advance := by simp only [Statement]; decide

theorem advanceWrap : Statement .advanceWrap := by simp only [Statement]; decide

theorem next : Statement .next := by simp only [Statement]; decide

theorem prev : Statement .prev := by simp only [Statement]; decide

theorem edgeNeighbors : Statement .edgeNeighbors := by simp only [Statement]; decide

theorem fromFaceIjWrap : Statement .fromFaceIjWrap := by simp only [Statement]; decide

end Sys2Proof.Laws.RowMatch
end

