-- ==== Sys2Proof/Laws/Ports.lean ====
section
/-!
SUPPORT. Everything a move at one of the two ports can do, one lemma for each.
-/

namespace Sys2Proof.Machine

@[simp] theorem asks_done (r : CmdResult) : (Prog.done r).asks = false := rfl

@[simp] theorem asks_ask (q : CollabReq) (k : CollabRsp → Prog) : (Prog.ask q k).asks = true := rfl

theorem asks_iff (p : Prog) : p.asks = true ↔ ∃ q k, p = .ask q k := by cases p <;> simp

/-- The program of a command in flight reads nothing of the block but the two tables. -/
theorem wordProg_congr {s t : State} (hp : t.posLut = s.posLut) (hi : t.ijLut = s.ijLut)
    (f : InFlight) : wordProg t f = wordProg s f := by
  have ht : ∀ tb, t.table tb = s.table tb := fun tb => by cases tb <;> simp [State.table, hp, hi]
  unfold wordProg
  cases decode f.word with
  | error e => rfl
  | ok i => cases i <;> simp [commandProg, hp, hi, ht]

/-- Nor does it depend on how far the exchanges have come. -/
theorem wordProg_exchanged (s : State) (f : InFlight) (q : Option CollabReq) (rs : List CollabRsp) :
    wordProg s { f with request := q, responses := rs } = wordProg s f := rfl

theorem hostWaiting_iff (s : State) : s.hostWaiting = true ↔ ∃ a, s.hostPort = .pending a := by
  unfold State.hostWaiting; cases s.hostPort <;> simp

theorem stalled_iff (s : State) : s.stalled = true ↔ ∃ f q k, s.inflight = some f ∧
    s.collabStalls = true ∧ (f.gate (wordProg s f)).resume f.responses = .ask q k := by
  unfold State.stalled; cases s.inflight <;> simp [asks_iff]

theorem stalled_answers {s : State} (h : s.collabStalls = false) : s.stalled = false := by
  unfold State.stalled; cases s.inflight <;> simp [h]

/-- A request is put on the collaborator port, or nothing happens. -/
theorem raiseCollab_cases (p : InFlight → Prog) (s : State) :
    s.raiseCollab p = s ∨
    ∃ f q k, s.inflight = some f ∧ f.request = none ∧
      (f.gate (p f)).resume f.responses = .ask q k ∧
      s.raiseCollab p = { s with
        inflight := some { f with request := some q }
        collabTrace := s.collabTrace ++ [q] } := by
  unfold State.raiseCollab
  split
  · exact .inl rfl
  · rename_i f hf
    split
    · rename_i q k hr hp
      exact .inr ⟨f, q, k, hf, hr, hp, rfl⟩
    all_goals exact .inl rfl

/-- A response is taken, or nothing happens. -/
theorem takeRsp_cases (s : State) :
    s.takeRsp = s ∨
    ∃ f q, s.inflight = some f ∧ f.request = some q ∧
      s.takeRsp = { s with
        inflight := some
          { f with request := none, responses := f.responses ++ [s.collabAnswer q] } } := by
  unfold State.takeRsp
  split
  · exact .inl rfl
  · rename_i f hf
    split
    · exact .inl rfl
    · rename_i q hr
      exact .inr ⟨f, q, hf, hr, rfl⟩

/-- A write that is performed goes to one of the five registers that take one. -/
theorem writeReg_cases {off : Nat} {v : Word} {s t : State} (h : s.writeReg off v = some t) :
    (off = 0x00 ∧ t = s.writeCmd v) ∨ (off = 0x08 ∧ t = s.writeStatus v) ∨
    (off = 0x10 ∧ t = { s with op0 := v }) ∨ (off = 0x18 ∧ t = { s with op1 := v }) ∨
    (off = 0x20 ∧ t = { s with op2 := v }) := by
  unfold State.writeReg at h
  split at h <;> simp at h <;> simp [← h]

/-- What a host access can do to the block: nothing, or the write of one register by a legal access. -/
theorem perform_cases (a : Access) (s : State) :
    (s.perform a).1 = s ∨
    ∃ t, s.perform a = (t, .written) ∧ a.write = true ∧ a.size = 3 ∧
      s.writeReg a.addr.toNat a.wdata = some t := by
  unfold State.perform
  split
  next hl =>
    have hs : a.size = 3 := by simp [Access.legal] at hl; exact hl.1
    split
    next hw => split <;> simp_all
    next => split <;> simp
  next => simp

end Sys2Proof.Machine
end

