-- ==== Sys2Proof/Tests/Slice0.lean ====
section
/-!
SUPPORT. The model's own tests, each against a value of 95_test_vectors.md or of the rule it names, and
for every obligation with hypotheses a concrete case that meets them all.
-/

namespace Sys2Proof.Tests

-- One proof after another: each kernel evaluation would otherwise hold a thread while it waits.
set_option Elab.async false

open Sys2Proof.Machine

/-! ### Helpers -/

/-- A command word just accepted on three operands, in a READY block. -/
def flight (w op0 op1 op2 : Word) : InFlight :=
  { word := w, op0 := op0, op1 := op1, op2 := op2, ready := true, request := none, responses := [] }

/-- A READY block with nothing in flight. -/
def idle : State := State.reset.buildTables

/-- A READY block with a command just accepted. -/
def running (w op0 op1 op2 : Word) : State :=
  { idle with cmd := w, lastOpcode := opcodeField w, inflight := some (flight w op0 op1 op2) }

/-- The next state, if there is one, meets a check. -/
def gives (o : Host.Outcome State Fault Refusal) (p : State → Bool) : Bool :=
  match o with
  | .next t => p t
  | .fault _ => false
  | .refused _ => false

/-- A block about to answer an access of the host. -/
def asked (s : State) (a : Access) : State := { s with agenda := [.hostAck], hostPort := .pending a }

/-- A doubleword read. -/
def rd (addr : BitVec 7) : Access := ⟨false, addr, 3, 0⟩

/-- A doubleword write. -/
def wr (addr : BitVec 7) (v : Word) : Access := ⟨true, addr, 3, v⟩

/-- The reference collaborator, with `cos` and `sin` fixed at their values for 0. -/
def refC : Config.Collab := refCollab (fun _ => f64One) (fun _ => 0)

/-- A collaborator that answers face 7. -/
def badC : Config.Collab := { refC with faceUVFromPoint := fun _ => ⟨7, 0, 0⟩ }

/-- A collaborator that answers a NaN `u`. -/
def nanC : Config.Collab := { refC with faceUVFromPoint := fun _ => ⟨0, f64NaN, 0⟩ }

/-- What is known of a collaborator that answers a program's requests. -/
def factsOf (c : Config.Collab) (p : Prog) : List CollabFact :=
  (p.requests (collabRespond c)).map fun q => ⟨q, collabRespond c q⟩

/-- `running`, with the answers a collaborator gives the command. -/
def runningWith (c : Config.Collab) (w op0 op1 op2 : Word) : State :=
  { running w op0 op1 op2 with
    collabTable := factsOf c (wordProg (running w op0 op1 op2) (flight w op0 op1 op2)) }

/-! ### WellFormed: the one check, refused on the first level without an encoding -/

theorem test_wf_level_64 : (Instr.parent 64).wf = false := by decide

theorem test_wf_level_63 : (Instr.parent 63).wf = true := by decide

/-! ### Decoding: words written out from 30_encoding.md R91 and R93, RSVD, TSEL, LEVEL, OPCODE -/

theorem test_decode_lut_read_pos : decode (0#49 ++ 0b0#1 ++ 0b000000#6 ++ 0b00000001#8) = .ok (.lutRead .pos) := by decide
theorem test_decode_lut_read_ij : decode (0#49 ++ 0b1#1 ++ 0b000000#6 ++ 0b00000001#8) = .ok (.lutRead .ij) := by decide
theorem test_decode_uv_to_st : decode (0#49 ++ 0b0#1 ++ 0b000000#6 ++ 0b00000010#8) = .ok .uvToSt := by decide
theorem test_decode_st_to_ij : decode (0#49 ++ 0b0#1 ++ 0b000000#6 ++ 0b00000011#8) = .ok .stToIj := by decide
theorem test_decode_from_face_ij : decode (0#49 ++ 0b0#1 ++ 0b000000#6 ++ 0b00000100#8) = .ok .fromFaceIj := by decide
theorem test_decode_from_face_uv : decode (0#49 ++ 0b0#1 ++ 0b000000#6 ++ 0b00000101#8) = .ok .fromFaceUv := by decide
theorem test_decode_from_latlng : decode (0#49 ++ 0b0#1 ++ 0b000000#6 ++ 0b00000110#8) = .ok .fromLatLng := by decide
theorem test_decode_to_face_ij : decode (0#49 ++ 0b0#1 ++ 0b000000#6 ++ 0b00000111#8) = .ok .toFaceIj := by decide
theorem test_decode_is_valid : decode (0#49 ++ 0b0#1 ++ 0b000000#6 ++ 0b00001000#8) = .ok .isValid := by decide
theorem test_decode_face : decode (0#49 ++ 0b0#1 ++ 0b000000#6 ++ 0b00001001#8) = .ok .face := by decide
theorem test_decode_level : decode (0#49 ++ 0b0#1 ++ 0b000000#6 ++ 0b00001010#8) = .ok .level := by decide
theorem test_decode_parent_15 : decode (0#49 ++ 0b0#1 ++ 0b001111#6 ++ 0b00001011#8) = .ok (.parent 15) := by decide
theorem test_decode_parent_63 : decode (0#49 ++ 0b0#1 ++ 0b111111#6 ++ 0b00001011#8) = .ok (.parent 63) := by decide
theorem test_decode_advance : decode (0#49 ++ 0b0#1 ++ 0b000000#6 ++ 0b00001100#8) = .ok .advance := by decide
theorem test_decode_advance_wrap : decode (0#49 ++ 0b0#1 ++ 0b000000#6 ++ 0b00001101#8) = .ok .advanceWrap := by decide
theorem test_decode_next : decode (0#49 ++ 0b0#1 ++ 0b000000#6 ++ 0b00001110#8) = .ok .next := by decide
theorem test_decode_prev : decode (0#49 ++ 0b0#1 ++ 0b000000#6 ++ 0b00001111#8) = .ok .prev := by decide
theorem test_decode_edge_neighbors : decode (0#49 ++ 0b0#1 ++ 0b000000#6 ++ 0b00010000#8) = .ok .edgeNeighbors := by decide
theorem test_decode_from_face_ij_wrap : decode (0#49 ++ 0b0#1 ++ 0b000000#6 ++ 0b00010001#8) = .ok .fromFaceIjWrap := by decide
theorem test_decode_zero : decode 0 = .error .illegalOpcode := by decide
theorem test_decode_parent_tsel : decode 0x4F0B = .error .tableField := by decide
theorem test_decode_lut_read_level : decode 0x0101 = .error .levelField := by decide
theorem test_decode_lut_read_bit15 : decode 0x8001 = .error .reservedBits := by decide

/-- 20_memory.md R65: lane 0 carries bits 7:0. -/
theorem test_decode_lanes_parent : decodeLanes [0x0B, 0x0F, 0, 0, 0, 0, 0, 0] = .ok (.parent 15) := by decide

theorem test_decode_lanes_short : decodeLanes [0x0E] = .error .notOneWord := by decide

theorem test_table_word_edge_neighbors : decodeTableWord 64 0x10 = some .edgeNeighbors := by decide

theorem test_encode_parent_15 : encode (.parent 15) = 0x0F0B := by decide

/-! ### One step of each command (95_test_vectors.md section 2) -/

theorem test_lut_read_pos_2 : gives (exec (.lutRead .pos) (running 0x0001 2 0 0)) (fun t => decide (t.res0 = 0x2AA)) = true := by decide +kernel
theorem test_lut_read_ij_3ff : gives (exec (.lutRead .ij) (running 0x4001 0x3FF 0 0)) (fun t => decide (t.res0 = 0x3C3)) = true := by decide +kernel
theorem test_uv_to_st_half : gives (exec .uvToSt (running 2 0x3FE0000000000000 0 0)) (fun t => decide (t.res0 = 0x3FE94C583ADA5B53)) = true := by decide +kernel
theorem test_uv_to_st_minus_3 : gives (exec .uvToSt (running 2 0xC008000000000000 0 0)) (fun t => decide (t.res0 = 0xBFE298B075B4B6A6)) = true := by decide +kernel
theorem test_st_to_ij_tenth : gives (exec .stToIj (running 3 0x3FB999999999999A 0 0)) (fun t => decide (t.res0 = 0x06666666)) = true := by decide +kernel
theorem test_st_to_ij_one : gives (exec .stToIj (running 3 0x3FF0000000000000 0 0)) (fun t => decide (t.res0 = 0x3FFFFFFF)) = true := by decide +kernel
theorem test_from_face_ij : gives (exec .fromFaceIj (running 4 3 123456789 987654321)) (fun t => decide (t.res0 = 0x7FA6C56799769965)) = true := by decide +kernel
theorem test_from_face_ij_i_range : gives (exec .fromFaceIj (running 4 0 0x40000000 0)) (fun t => decide (t.status = 0x0000000000041605)) = true := by decide +kernel
theorem test_from_face_uv : gives (exec .fromFaceUv (running 5 1 0x3FE0000000000000 0xBFE0000000000000)) (fun t => decide (t.res0 = 0x2BEEFAFEEBFFABBB)) = true := by decide +kernel
theorem test_from_face_uv_second_nan : gives (exec .fromFaceUv (running 5 0 0 f64NaN)) (fun t => decide (t.errCode = .invalidOperand ∧ t.errOperand = .op2)) = true := by decide +kernel
theorem test_from_latlng_origin : gives (exec .fromLatLng (runningWith refC 6 0 0 0)) (fun t => decide (t.res0 = 0x1000000000000001)) = true := by decide +kernel
theorem test_from_latlng_face_7 : gives (exec .fromLatLng (runningWith badC 6 0 0 0)) (fun t => decide (t.errCode = .projectionFault ∧ t.collabTrace.length = 2)) = true := by decide +kernel
theorem test_to_face_ij_leaf : gives (exec .toFaceIj (running 7 0x7FA6C56799769965 0 0)) (fun t => decide (t.res0 = 3 ∧ t.res1 = 123456789 ∧ t.res2 = 987654321 ∧ t.res3 = 1)) = true := by decide +kernel
theorem test_to_face_ij_level_15 : gives (exec .toFaceIj (running 7 0x7FA6C567C0000000 0 0)) (fun t => decide (t.res1 = 123453439 ∧ t.res2 = 987643903 ∧ t.res3 = 3)) = true := by decide +kernel
theorem test_is_valid_odd_marker : gives (exec .isValid (running 8 0xA800000000000000 0 0)) (fun t => decide (t.res0 = 0 ∧ t.errCode = .noError)) = true := by decide +kernel
theorem test_is_valid_leaf : gives (exec .isValid (running 8 0x7FA6C56799769965 0 0)) (fun t => decide (t.res0 = 1)) = true := by decide +kernel
theorem test_face_4 : gives (exec .face (running 9 0x89C2585440000000 0 0)) (fun t => decide (t.res0 = 4)) = true := by decide +kernel
theorem test_face_end_0 : gives (exec .face (running 9 0xD000000000000000 0 0)) (fun t => decide (t.errCode = .invalidFace ∧ t.errOperand = .op0)) = true := by decide +kernel
theorem test_level_15 : gives (exec .level (running 10 0x7FA6C567C0000000 0 0)) (fun t => decide (t.res0 = 15)) = true := by decide +kernel
theorem test_level_odd_marker : gives (exec .level (running 10 2 0 0)) (fun t => decide (t.status = 0x00000000000A0405)) = true := by decide +kernel
theorem test_parent_15 : gives (exec (.parent 15) (running 0x0F0B 0x7FA6C56799769965 0 0)) (fun t => decide (t.res0 = 0x7FA6C567C0000000)) = true := by decide +kernel
theorem test_parent_31 : gives (exec (.parent 31) (running 0x1F0B 1 0 0)) (fun t => decide (t.status = 0x00000000000BF505)) = true := by decide +kernel
theorem test_advance_to_end : gives (exec .advance (running 12 0xBFFFFFFFFFFFFFFF 1 0)) (fun t => decide (t.res0 = 0xC000000000000001)) = true := by decide +kernel
theorem test_advance_back_stops : gives (exec .advance (running 12 1 0x8000000000000000 0)) (fun t => decide (t.res0 = 1)) = true := by decide +kernel
theorem test_advance_wrap_max : gives (exec .advanceWrap (running 13 1 0x7FFFFFFFFFFFFFFF 0)) (fun t => decide (t.res0 = 0x3FFFFFFFFFFFFFFF)) = true := by decide +kernel
theorem test_advance_wrap_back : gives (exec .advanceWrap (running 13 0x7FA6C567C0000000 0xFFFFFFFFFFFFFFFD 0)) (fun t => decide (t.res0 = 0x7FA6C56640000000)) = true := by decide +kernel
theorem test_next_wraps : gives (exec .next (running 14 0xBFFFFFFFFFFFFFFF 0 0)) (fun t => decide (t.res0 = 1)) = true := by decide +kernel
theorem test_next_status : gives (exec .next (running 14 1 0 0)) (fun t => decide (t.res0 = 3 ∧ t.status = 0x00000000010EF001)) = true := by decide +kernel
theorem test_prev_wraps : gives (exec .prev (running 15 1 0 0)) (fun t => decide (t.res0 = 0xBFFFFFFFFFFFFFFF)) = true := by decide +kernel
theorem test_edge_neighbors_interior : gives (exec .edgeNeighbors (running 16 0x89C2585440000000 0 0)) (fun t => decide (t.res0 = 0x89C25853C0000000 ∧ t.res1 = 0x89C25854C0000000 ∧ t.res2 = 0x89C25855C0000000 ∧ t.res3 = 0x89C25856C0000000 ∧ t.collabTrace = [])) = true := by decide +kernel
theorem test_edge_neighbors_corner : gives (exec .edgeNeighbors (runningWith refC 16 1 0 0)) (fun t => decide (t.res0 = 0xBFFFFFFFFFFFFFFF ∧ t.res1 = 3 ∧ t.res2 = 7 ∧ t.res3 = 0x9555555555555555 ∧ t.collabTrace.map CollabReq.kind = [1, 2, 1, 2])) = true := by decide +kernel
theorem test_from_face_ij_wrap_right : gives (exec .fromFaceIjWrap (runningWith refC 17 0 0x40000000 5)) (fun t => decide (t.res0 = 0x2000000000000027)) = true := by decide +kernel
theorem test_from_face_ij_wrap_nan : gives (exec .fromFaceIjWrap (runningWith nanC 17 0 0 0)) (fun t => decide (t.errCode = .projectionFault ∧ t.errOperand = .cmdw ∧ t.resultCount = 0)) = true := by decide +kernel

/-! ### The machine around the commands (95_test_vectors.md sections 2.7 and 2.8) -/

theorem test_reset_status : State.reset.status = 0x000000000000F000 := by decide

theorem test_init_done : gives (step State.reset) (fun t => decide (t.status = 0x000000000000F001)) = true := by decide +kernel

theorem test_init_failed : gives (step { State.reset with projMode := 1 }) (fun t => decide (t.status = 0x000000000000F70C)) = true := by decide +kernel

theorem test_not_ready : gives (step { State.reset.accept 0xE with agenda := [.complete] }) (fun t => decide (t.status = 0x00000000000EF204)) = true := by decide +kernel

theorem test_illegal_word : gives (step (running 0x10E 1 0 0)) (fun t => decide (t.status = 0x00000000000EF105)) = true := by decide +kernel

theorem test_bus_error_0x28 : gives (step (asked idle (rd 0x28))) (fun t => decide (t.hostPort = .answered .busError)) = true := by decide +kernel

theorem test_status_read_narrow : gives (step (asked idle ⟨false, 0x08, 2, 0⟩)) (fun t => decide (t.hostPort = .answered .busError)) = true := by decide +kernel

theorem test_overrun_kept_without_bit_4 : gives (step (asked { idle with overrun := true } (wr 0x08 0xFFFFFFFFFFFFFFEF))) (fun t => t.overrun) = true := by decide +kernel

theorem test_overrun_set : gives (step (asked (running 6 0 0 0) (wr 0x00 0xE))) (fun t => t.overrun && decide (t.cmd = 6)) = true := by decide +kernel

theorem test_fetch_word_runs_first : gives (step (State.reset.withFetchWord 64 0x12)) (fun t => decide (t.status = 0x000000000012F105)) = true := by decide +kernel

/-- 40_lut.md R126 on the key its section 2.1 example uses. -/
theorem test_tables_inverse_key_2 : lutRead builtPosLut 2 = 0x2AA ∧ lutRead builtIjLut 0x2AA = 2 := by decide +kernel

/-- 40_lut.md R123 and R125 on the first leaf of the SWAP seed: key 1 holds 1. -/
theorem test_construction_first_leaf : (initCell 4 0 0 1 0 1).head? = some ⟨1, 1, 1, 1⟩ := by decide +kernel

/-- 20_memory.md R77, 42_encoder.md R165: the first request of FROM_LATLNG. -/
theorem test_first_request : gives (step { running 6 7 9 0 with agenda := [.collabReq] }) (fun t => decide (t.inflight.map InFlight.request = some (some (.ptFromLatLng 7 9)))) = true := by decide +kernel

/-- 30_encoding.md R101: `WAIT` behind a finished command reads `STATUS`. -/
theorem test_wait_ends : gives (step { idle with agenda := [.pollBusy] }) (fun t => decide (t.hostPort = .answered (.data 0xF001) ∧ t.agenda = [])) = true := by decide +kernel


/-- 70_reset_and_hazards.md R300: behind a collaborator that never answers `WAIT` does not end; the
request is on the port. -/
theorem test_wait_never_ends : gives (step { runningWith refC 6 7 9 0 with collabStalls := true, agenda := [.pollBusy] }) (fun t => t.isBusy && decide (t.agenda = [.pollBusy] ∧ t.collabTrace = [.ptFromLatLng 7 9])) = true := by decide +kernel

/-- 70_reset_and_hazards.md R302: `h_ack` is not withheld, a command in flight or not. -/
theorem test_host_is_answered : gives (step { running 6 7 9 0 with hostPort := .pending (rd 0x00) }) (fun t => t.isBusy && decide (t.hostPort = .answered (.data 6))) = true := by decide +kernel

/-! ### Witnesses: for each obligation with hypotheses, cases that meet them all, clause by clause -/

theorem witness_decode_encode_round_trip : (Instr.parent 63).wf = true ∧ Instr.edgeNeighbors.wf = true := by decide

theorem witness_encode_decode_round_trip : decode 0x3F0B = .ok (.parent 63) ∧ decode 0x11 = .ok .fromFaceIjWrap := by decide

/-- Each test of 30_encoding.md R98 on the nearest word that fails it, and three words that pass all. -/
theorem witness_decode_is_total_and_exact :
    (0x00#64).toNat % 256 < 0x01 ∧ 0x11 < (0x12#64).toNat % 256 ∧ (0x8001#64).toNat / 2 ^ 15 ≠ 0 ∧
    ((0x010A#64).toNat % 256 ≠ 0x0B ∧ (0x010A#64).toNat / 2 ^ 8 % 64 ≠ 0) ∧
    ((0x4002#64).toNat % 256 ≠ 0x01 ∧ (0x4002#64).toNat / 2 ^ 14 % 2 ≠ 0) ∧
    ([0x4001#64, 0x3F0B#64, 0x11#64].all fun w =>
      decide ¬(w.toNat % 256 < 0x01 ∨ 0x11 < w.toNat % 256 ∨ w.toNat / 2 ^ 15 ≠ 0 ∨
        (w.toNat % 256 ≠ 0x0B ∧ w.toNat / 2 ^ 8 % 64 ≠ 0) ∨
        (w.toNat % 256 ≠ 0x01 ∧ w.toNat / 2 ^ 14 % 2 ≠ 0))) = true := by decide

theorem witness_lanes_carry_the_word : 0 < 8 ∧ 7 < 8 := by decide

theorem witness_reset_edge : { running 6 7 9 0 with agenda := [.reset 3] }.agenda = .reset 3 :: [] := rfl

theorem witness_init_done_runs :
    let s : State := { State.reset with agenda := [.initDone] }
    s.agenda = .initDone :: [] ∧ s.initState = .building ∧ s.projMode = 0 ∧ lutWf s.posLut ∧
      lutWf s.ijLut :=
  ⟨rfl, rfl, rfl, unbuiltLut_wf, unbuiltLut_wf⟩

theorem witness_init_done_fails : ∀ m ∈ [1#2, 3#2],
    let s : State := { State.reset with agenda := [.initDone], projMode := m }
    s.agenda = .initDone :: [] ∧ s.initState = .building ∧ s.projMode ≠ 0 := by decide +kernel

theorem witness_tables_are_inverse : 0 < 1024 ∧ 1023 < 1024 := by decide

theorem witness_initialisation_lasts :
    (idle.initState ≠ .building ∧ ∀ strap rest, idle.agenda ≠ .reset strap :: rest) ∧
    ({ State.reset with initState := .failed }.initState ≠ .building ∧
      ∀ strap rest, { State.reset with initState := .failed }.agenda ≠ .reset strap :: rest) :=
  ⟨⟨nofun, nofun⟩, ⟨nofun, nofun⟩⟩

/-- Too narrow, too narrow and misaligned, and misaligned on either side of a slot. -/
theorem witness_illegal_access :
    ∀ a ∈ [(⟨false, 0x08, 2, 0⟩ : Access), ⟨true, 0x04, 2, 0⟩, ⟨true, 0x01, 3, 0⟩, ⟨false, 0x7F, 3, 0⟩],
      (asked idle a).agenda = .hostAck :: [] ∧ (asked idle a).hostPort = .pending a ∧
      (a.size ≠ 3 ∨ a.addr.toNat % 8 ≠ 0) := by decide +kernel

theorem witness_reserved_and_read_only :
    ∀ a ∈ [rd 0x28, wr 0x28 1, rd 0x50, wr 0x78 1, wr 0x30 1, wr 0x48 1],
      (asked idle a).agenda = .hostAck :: [] ∧ (asked idle a).hostPort = .pending a ∧
      (a.addr = 0x28 ∨ (0x50 ≤ a.addr.toNat ∧ a.addr.toNat ≤ 0x78) ∨
        (a.write = true ∧ 0x30 ≤ a.addr.toNat ∧ a.addr.toNat ≤ 0x48)) := by decide +kernel

theorem witness_host_port_reads : ([(0x00#7, 0xE#64), (0x08, 0xEF003), (0x10, 0), (0x18, 0), (0x20, 0),
      (0x30, 0), (0x38, 0), (0x40, 0), (0x48, 0)].all fun p =>
    let s := asked (running 0xE 1 2 3) (rd p.1)
    let v : Word := p.2
    decide (s.agenda = .hostAck :: [] ∧ s.hostPort = .pending (rd p.1) ∧ (rd p.1).write = false ∧
      (rd p.1).size = 3 ∧
      ((rd p.1).addr = 0x00 ∧ v = s.cmd ∨ (rd p.1).addr = 0x08 ∧ v = s.status ∨
        (rd p.1).addr = 0x10 ∧ v = s.op0 ∨ (rd p.1).addr = 0x18 ∧ v = s.op1 ∨
        (rd p.1).addr = 0x20 ∧ v = s.op2 ∨ (rd p.1).addr = 0x30 ∧ v = s.res0 ∨
        (rd p.1).addr = 0x38 ∧ v = s.res1 ∨ (rd p.1).addr = 0x40 ∧ v = s.res2 ∨
        (rd p.1).addr = 0x48 ∧ v = s.res3))) = true := by decide +kernel

/-- Raised with no request outstanding and with one; a poll that ends, and polls that go on behind a
command, behind a request of the host, and behind initialisation. -/
theorem witness_host_port_requests_and_polls :
    { idle with agenda := [.hostReq (rd 0x08)] }.agenda = .hostReq (rd 0x08) :: [] ∧
    idle.hostWaiting = false ∧ (asked idle (rd 0x08)).hostWaiting = true ∧
    { idle with agenda := [.pollBusy] }.agenda = .pollBusy :: [] ∧ idle.inflight = none ∧
    (running 0xE 1 0 0).inflight ≠ none ∧
    { idle with agenda := [.pollReady] }.agenda = .pollReady :: [] ∧ idle.initState ≠ .building ∧
    State.reset.initState = .building := by decide +kernel

theorem witness_operand_and_status_writes : ∀ addr ∈ [0x10#7, 0x18, 0x20, 0x08],
    let a := wr addr 0x10
    (asked (running 0xE 1 2 3) a).agenda = .hostAck :: [] ∧
    (asked (running 0xE 1 2 3) a).hostPort = .pending a ∧ a.write = true ∧ a.size = 3 ∧
    a.addr = addr := by decide +kernel

/-- OVERRUN cleared by a reset edge, and by the write that 10_state.md R37 gives for it. -/
theorem witness_overrun_is_sticky :
    (∃ t, step { idle with overrun := true, agenda := [.reset 0] } = .next t ∧ t.overrun = false) ∧
    (∃ t, step (asked { idle with overrun := true } (wr 0x08 0x10)) = .next t ∧ t.overrun = false) :=
  ⟨⟨_, rfl, rfl⟩, ⟨_, rfl, rfl⟩⟩

theorem witness_command_write_accepted : ∀ s ∈ [idle, State.reset],
    (asked s (wr 0x00 0xE)).agenda = .hostAck :: [] ∧
    (asked s (wr 0x00 0xE)).hostPort = .pending (wr 0x00 0xE) ∧
    (asked s (wr 0x00 0xE)).inflight = none := by decide +kernel

theorem witness_command_write_dropped :
    (asked (running 6 7 9 0) (wr 0x00 0xE)).hostPort = .pending (wr 0x00 0xE) ∧
    (asked (running 6 7 9 0) (wr 0x00 0xE)).inflight = some (flight 6 7 9 0) := ⟨rfl, rfl⟩

theorem witness_step_runs_the_decoded_command : decode (flight 0xE 1 0 0).word = .ok .next ∧
    (running 0xE 1 0 0).inflight = some (flight 0xE 1 0 0) ∧
    { running 0xE 1 0 0 with agenda := [.complete] }.agenda = .complete :: [] ∧
    (running 0xE 1 0 0).agenda = [] ∧ (running 0xE 1 0 0).hostWaiting = false ∧
    (running 0xE 1 0 0).stalled = false ∧
    { running 0xE 1 0 0 with agenda := [.pollBusy] }.agenda = .pollBusy :: [] ∧
    (State.reset.accept 0xE).initState = .building ∧ (State.reset.accept 0xE).stalled = false ∧
    { State.reset.accept 0xE with agenda := [.pollReady] }.agenda = .pollReady :: [] := by
  decide +kernel

theorem witness_illegal_word_completes :
    Runs { running 0x12 1 0 0 with agenda := [.complete] } (flight 0x12 1 0 0) ∧
    decode (flight 0x12 1 0 0).word = .error .illegalOpcode ∧
    decode (flight 0x4F0B 1 0 0).word = .error .tableField := ⟨⟨rfl, rfl⟩, by decide, by decide⟩

/-- Any word, legal or not, accepted right after reset. -/
theorem witness_not_ready_comes_first (w : Word) :
    let s : State := { State.reset.accept w with agenda := [.complete] }
    s.agenda = .complete :: [] ∧ s.inflight = some { flight w 0 0 0 with ready := false } ∧
    { flight w 0 0 0 with ready := false }.ready = false := ⟨rfl, rfl, rfl⟩

theorem witness_every_command_completes : (running 17 6 0 0).inflight = some (flight 17 6 0 0) := rfl

/-- FROM_LATLNG in flight, the collaborator never to answer. -/
def runningStalled : State := { runningWith refC 6 7 9 0 with collabStalls := true }

/-- A request of the host outstanding, a command that completes, and one that waits for good. -/
theorem witness_left_to_itself :
    (running 0xE 1 0 0).agenda = [] ∧ { idle with hostPort := .pending (rd 0x08) }.hostWaiting = true ∧
    { idle with hostPort := .pending (rd 0x08) }.agenda = [] ∧
    (running 0xE 1 0 0).hostWaiting = false ∧ (running 0xE 1 0 0).inflight ≠ none ∧
    (running 0xE 1 0 0).stalled = false ∧ { running 0xE 1 0 0 with collabStalls := true }.stalled = false ∧
    (running 6 7 9 0).collabStalls = false ∧ (running 6 7 9 0).stalled = false ∧
    runningStalled.stalled = true ∧ runningStalled.agenda = [] ∧
    { runningStalled with agenda := [.pollBusy] }.stalled = true := by decide +kernel

/-- FROM_LATLNG with its first request outstanding. -/
def flightAsking : InFlight := { flight 6 7 9 0 with request := some (.ptFromLatLng 7 9) }

/-- `flightAsking` in its block. -/
def runningAsking : State :=
  { runningWith refC 6 7 9 0 with inflight := some flightAsking, collabTrace := [.ptFromLatLng 7 9] }

theorem witness_exchanges_refine_completion :
    runningAsking.inflight = some flightAsking ∧ decode flightAsking.word = .ok .fromLatLng ∧
    Exchanged (flightAsking.gate (wordProg runningAsking flightAsking)) runningAsking.collabAnswer
      flightAsking runningAsking.collabTrace :=
  ⟨rfl, by decide, 0, Nat.zero_le _, rfl, by decide +kernel, by decide +kernel⟩

/-- A first request due, one outstanding, a program that asks nothing, and nothing in flight. -/
theorem witness_collab_port_exchanges :
    (running 6 7 9 0).inflight = some (flight 6 7 9 0) ∧ (flight 6 7 9 0).request = none ∧
    (∃ k, ((flight 6 7 9 0).gate (wordProg (running 6 7 9 0) (flight 6 7 9 0))).resume
      (flight 6 7 9 0).responses = .ask (.ptFromLatLng 7 9) k) ∧
    runningAsking.inflight = some flightAsking ∧ flightAsking.request = some (.ptFromLatLng 7 9) ∧
    (∃ r, ((flight 8 1 0 0).gate (wordProg (running 8 1 0 0) (flight 8 1 0 0))).resume
      (flight 8 1 0 0).responses = .done r) ∧
    idle.inflight = none ∧ { idle with agenda := [.collabReq] }.agenda = .collabReq :: [] ∧
    { idle with agenda := [.collabRsp] }.agenda = .collabRsp :: [] :=
  ⟨rfl, rfl, ⟨_, rfl⟩, rfl, rfl, ⟨_, rfl⟩, rfl, rfl, rfl⟩

theorem witness_early_errors_ask_nothing : ∃ t,
    exec .fromLatLng (running 6 0 f64NaN 0) = .next t ∧ Fresh (flight 6 0 f64NaN 0) ∧
    t.errCode = .invalidOperand :=
  ⟨_, rfl, ⟨rfl, rfl⟩, by decide +kernel⟩

theorem witness_runs (w op0 op1 op2 : Word) : Runs (running w op0 op1 op2) (flight w op0 op1 op2) :=
  ⟨rfl, rfl⟩

theorem witness_runs_with (c : Config.Collab) (w op0 op1 op2 : Word) :
    Runs (runningWith c w op0 op1 op2) (flight w op0 op1 op2) := ⟨rfl, rfl⟩

theorem witness_fresh (w op0 op1 op2 : Word) : Fresh (flight w op0 op1 op2) := ⟨rfl, rfl⟩

theorem witness_lut_read : Runs (running 1 1024 0 0) (flight 1 1024 0 0) ∧
    1024 ≤ (flight 1 1024 0 0).op0.toNat ∧ 1024 ≤ (flight 1 (-1) 0 0).op0.toNat ∧
    (flight 1 1023 0 0).op0.toNat < 1024 ∧ (flight 1 0 0 0).op0.toNat < 1024 :=
  ⟨witness_runs _ _ _ _, by decide⟩

/-- A NaN; the two zeros and infinity; the negative number next to zero and minus infinity. -/
theorem witness_uv_to_st : Runs (running 2 f64NaN 0 0) (flight 2 f64NaN 0 0) ∧
    f64IsNaN f64NaN = true ∧
    ([0#64, 0x8000000000000000#64, 0x7FF0000000000000#64].all fun u =>
      decide (f64IsNaN u = false ∧ f64NonNeg u = true)) = true ∧
    ([0x8000000000000001#64, 0xFFF0000000000000#64].all fun u =>
      decide (f64IsNaN u = false ∧ f64NonNeg u = false)) = true :=
  ⟨witness_runs _ _ _ _, by decide +kernel⟩

theorem witness_uv_to_st_is_never_nan :
    f64IsNaN 0xFFF0000000000000 = false ∧ f64IsNaN 0x7FF0000000000000 = false := by decide +kernel

theorem witness_st_to_ij : Runs (running 3 0xFFF0000000000001 0 0) (flight 3 0xFFF0000000000001 0 0) ∧
    f64IsNaN 0xFFF0000000000001 = true ∧ f64IsNaN 0xFFF0000000000000 = false :=
  ⟨witness_runs _ _ _ _, by decide +kernel⟩

/-- Just below 1, 1, the negative number next to zero, and the infinities. -/
theorem witness_st_to_ij_floor :
    f64Value 0x3FEFFFFFFFFFFFFF = .fin false (2 ^ 53 - 1) (-53) ∧
    f64Value 0x3FF0000000000000 = .fin false (2 ^ 52) (-52) ∧
    f64Value 0x8000000000000001 = .fin true 1 (-1074) ∧
    f64Value 0x7FF0000000000000 = .inf false ∧ f64Value 0xFFF0000000000000 = .inf true := by
  decide +kernel

/-- A halfway case and the smallest subnormal; the last magnitude that rounds to a number and the first
that does not; and two finite operands. -/
theorem witness_rounding_is_nearest :
    f64Value (f64Round false (2 ^ 53 + 1) 0) = .fin false (2 ^ 52) 1 ∧
    f64Value (f64Round true 1 (-1074)) = .fin true 1 (-1074) ∧
    f64Value 0 = .fin false 0 (-1074) ∧ f64Value f64Three = .fin false (3 * 2 ^ 51) (-51) ∧
    |finValue true (2 ^ 55 - 3) 969| < 2 ^ 1024 - 2 ^ 970 ∧
    2 ^ 1024 - 2 ^ 970 ≤ |finValue true (2 ^ 54 - 1) 970| := by
  refine ⟨by decide +kernel, by decide +kernel, by decide +kernel, by decide +kernel, ?_, ?_⟩
  · have h : (2 : ℚ) ^ 1024 = 2 ^ 55 * 2 ^ 969 := by rw [← pow_add]
    have h' : (2 : ℚ) ^ 970 = 2 * 2 ^ 969 := by rw [← pow_succ']
    norm_num [finValue, signedNat, abs_mul]
    rw [h, h']
    have hu := pow_pos (two_pos (α := ℚ)) 969
    generalize (2 : ℚ) ^ 969 = u at hu ⊢
    norm_num
    linarith
  · have h : (2 : ℚ) ^ 1024 = 2 ^ 54 * 2 ^ 970 := by rw [← pow_add]
    norm_num [finValue, signedNat, abs_mul]
    rw [h]
    have hu := pow_pos (two_pos (α := ℚ)) 970
    generalize (2 : ℚ) ^ 970 = u at hu ⊢
    norm_num
    linarith

/-- Halfway between two numbers, the upper one even. -/
theorem witness_ties_go_to_even :
    f64Value (f64Round false (2 ^ 53 + 3) 0) = .fin false (2 ^ 52 + 2) 1 ∧
    f64Value 0x4340000000000001 = .fin false (2 ^ 52 + 1) 1 ∧
    |finValue false (2 ^ 52 + 2) 1 - finValue false (2 ^ 53 + 3) 0| =
      |finValue false (2 ^ 52 + 1) 1 - finValue false (2 ^ 53 + 3) 0| ∧
    finValue false (2 ^ 52 + 2) 1 ≠ finValue false (2 ^ 52 + 1) 1 := by
  refine ⟨by decide +kernel, by decide +kernel, ?_, ?_⟩ <;> norm_num [finValue, signedNat]

/-- Zero, the smallest subnormal and the largest number. -/
theorem witness_square_root_is_nearest :
    f64Value 0 = .fin false 0 (-1074) ∧ f64Value 1 = .fin false 1 (-1074) ∧
    f64Value 0x7FEFFFFFFFFFFFFF = .fin false (2 ^ 53 - 1) 971 := by decide +kernel

theorem witness_from_face_ij : Runs (running 4 6 0 0) (flight 4 6 0 0) ∧
    5 < (6#64).toNat ∧ (5#64).toNat ≤ 5 ∧ 2 ^ 30 ≤ (0x40000000#64).toNat ∧
    (0x3FFFFFFF#64).toNat < 2 ^ 30 :=
  ⟨witness_runs _ _ _ _, by decide⟩

theorem witness_grid_address : 5 ≤ 5 ∧ 2 ^ 30 - 1 < 2 ^ 30 := by decide

theorem witness_cell_round_trip :
    IsCellId 1 ∧ (1#64).toNat % 2 = 1 ∧ IsCellId 0xBFFFFFFFFFFFFFFF ∧
    (0xBFFFFFFFFFFFFFFF#64).toNat % 2 = 1 :=
  ⟨⟨by decide, 0, by decide⟩, by decide, ⟨by decide, 0, by decide⟩, by decide⟩

theorem witness_from_face_uv : Runs (running 5 6 0 0) (flight 5 6 0 0) ∧
    5 < (6#64).toNat ∧ (5#64).toNat ≤ 5 ∧ f64IsNaN f64NaN = true ∧ f64IsNaN 0 = false :=
  ⟨witness_runs _ _ _ _, by decide +kernel⟩

/-- The two ways to take an answer: a legal one, a face of 7, a NaN. -/
theorem witness_from_lat_lng :
    Runs (runningWith refC 6 0 0 0) (flight 6 0 0 0) ∧ Fresh (flight 6 0 0 0) ∧
    f64IsNaN f64NaN = true ∧ f64IsNaN 0 = false ∧
    (∀ c, c = refC → let s := runningWith c 6 0 0 0
      let r := s.collabAnswer (.faceUVFromPt (s.collabAnswer (.ptFromLatLng 0 0)).point)
      ¬(5 < r.face.toNat ∨ f64IsNaN r.a = true ∨ f64IsNaN r.b = true)) ∧
    (∀ c, c = badC ∨ c = nanC → let s := runningWith c 6 0 0 0
      let r := s.collabAnswer (.faceUVFromPt (s.collabAnswer (.ptFromLatLng 0 0)).point)
      (5 < r.face.toNat ∨ f64IsNaN r.a = true ∨ f64IsNaN r.b = true)) := by
  refine ⟨witness_runs_with _ _ _ _ _, witness_fresh _ _ _ _, by decide +kernel, by decide +kernel, ?_, ?_⟩
  · rintro c rfl; decide +kernel
  · rintro c (rfl | rfl) <;> decide +kernel

/-- A leaf, a cell whose orientation is corrected, one whose is not, and a face cell. -/
theorem witness_to_face_ij : Runs (running 7 1 0 0) (flight 7 1 0 0) ∧
    1 = cellAt 30 0 ∧ 0x10 = cellAt 28 0 ∧ 4 = cellAt 29 0 ∧ 0xB000000000000000 = cellAt 0 5 ∧
    30 ≤ 30 ∧ 0 < 6 * 4 ^ 30 ∧ 5 < 6 * 4 ^ 0 ∧
    ∃ i j o, decodeChunks (running 7 1 0 0).ijLut (1#64).toNat 8 0 0 (0 / 4 ^ 30 % 2) = (i, j, o) :=
  ⟨witness_runs _ _ _ _, by decide +kernel, by decide +kernel, by decide +kernel, by decide +kernel,
    by decide, by decide, by decide, _, _, _, rfl⟩

theorem witness_cell_decodes_to_its_central_leaf :
    29 < 30 ∧ 6 * 4 ^ 29 - 1 < 6 * 4 ^ 29 ∧ 0 < 30 ∧ 5 < 6 * 4 ^ 0 ∧
    faceIjOrientation builtIjLut (cellAt 0 5) = ⟨5, 2 ^ 29, 2 ^ 29, 1⟩ := by decide +kernel

/-- A face above 5, an even marker, an odd one, and no marker at all. -/
theorem witness_is_valid : Runs (running 8 1 0 0) (flight 8 1 0 0) ∧ IsCellId 1 ∧ IsCellId 4 ∧
    ¬IsCellId 0xD000000000000000 ∧ ¬IsCellId 2 ∧ ¬IsCellId 0 :=
  ⟨witness_runs _ _ _ _, ⟨by decide, 0, by decide⟩, ⟨by decide, 2, by decide⟩,
    by unfold IsCellId; decide, by unfold IsCellId; decide, by unfold IsCellId; decide⟩

theorem witness_cell_ids : IsCellId 0xB000000000000000 ∧ 30 ≤ 30 ∧ 6 * 4 ^ 30 - 1 < 6 * 4 ^ 30 :=
  ⟨⟨by decide, 60, by decide⟩, by decide, by decide⟩

theorem witness_cell_id_operands :
    Instr.prev ∈ [Instr.toFaceIj, .face, .level, .advance, .advanceWrap, .next, .prev, .edgeNeighbors] ∧
    Runs (running 15 0xC000000000000001 0 0) (flight 15 0xC000000000000001 0 0) ∧
    5 < (0xC000000000000001#64).toNat / 2 ^ 61 ∧ (0xA000000000000000#64).toNat / 2 ^ 61 ≤ 5 ∧
    ¬IsCellId 0xA000000000000000 :=
  ⟨by decide, witness_runs _ _ _ _, by decide, by decide, by unfold IsCellId; decide⟩

/-- FACE, LEVEL, ADVANCE, ADVANCE_WRAP, NEXT and PREV on the last leaf and on the first face cell. -/
theorem witness_cells :
    Runs (running 14 0xBFFFFFFFFFFFFFFF 0 0) (flight 14 0xBFFFFFFFFFFFFFFF 0 0) ∧ 30 ≤ 30 ∧
    6 * 4 ^ 30 - 1 < 6 * 4 ^ 30 ∧ 0xBFFFFFFFFFFFFFFF = cellAt 30 (6 * 4 ^ 30 - 1) ∧
    0x1000000000000000 = cellAt 0 0 ∧ 0 < 6 * 4 ^ 0 :=
  ⟨witness_runs _ _ _ _, by decide, by decide, by decide +kernel, by decide +kernel, by decide⟩

/-- The levels about the cell's own, 15, and the ends of the field. -/
theorem witness_parent : Runs (running 11 0x7FA6C567C0000000 0 0) (flight 11 0x7FA6C567C0000000 0 0) ∧
    0x7FA6C567C0000000 = cellAt 15 (0x7FA6C567C0000000 / 2 ^ 31) ∧
    0x7FA6C567C0000000 / 2 ^ 31 < 6 * 4 ^ 15 ∧ 0 ≤ 15 ∧ 15 ≤ 15 ∧ 15 < 16 ∧ 15 < 63 :=
  ⟨witness_runs _ _ _ _, by decide +kernel, by decide, by decide, by decide, by decide, by decide⟩

theorem witness_from_face_ij_wrap :
    Runs (runningWith refC 17 5 (-1) 5) (flight 17 5 (-1) 5) ∧ Fresh (flight 17 5 (-1) 5) ∧
    5 < (6#64).toNat ∧ (5#64).toNat ≤ 5 ∧
    (∃ v, wrapLeaf (runningWith refC 17 5 (-1) 5).collabAnswer builtPosLut 5 (-1) 5 = some v) ∧
    wrapLeaf (runningWith badC 17 5 (-1) 5).collabAnswer builtPosLut 5 (-1) 5 = none :=
  ⟨witness_runs_with _ _ _ _ _, witness_fresh _ _ _ _, by decide, by decide,
    Option.isSome_iff_exists.mp (by decide +kernel), by decide +kernel⟩

theorem witness_wrap_coordinates : (0 : Int) ≤ 0 ∧ (2 : Int) ^ 30 - 1 < 2 ^ 30 ∧ (-1 : Int) < 0 ∧
    (2 : Int) ^ 30 ≤ 2 ^ 30 := by decide

/-- What candidate `k` of EDGE_NEIGHBORS on the leaf of grid address `(i, j)` of face 0 comes to, in the
order of 45_neighbors.md R248. -/
def candidate (c : Config.Collab) (i j : Int) (k : Nat) : Option Word :=
  let s := runningWith c 16 (fromFaceIj builtPosLut 0 i.toNat j.toNat) 0 0
  match k with
  | 0 => candidateLeaf s.collabAnswer s.posLut 0 i (j - 1) (j - 1 ≥ 0)
  | 1 => candidateLeaf s.collabAnswer s.posLut 0 (i + 1) j (i + 1 < 2 ^ 30)
  | 2 => candidateLeaf s.collabAnswer s.posLut 0 i (j + 1) (j + 1 < 2 ^ 30)
  | _ => candidateLeaf s.collabAnswer s.posLut 0 (i - 1) j (i - 1 ≥ 0)

/-- The last leaf and the face cell; every clause on leaves of face 0: all four candidates answer at a
corner, and a collaborator that answers face 7 stops the first, second, third and fourth candidate on
the leaf in the middle of the lower, right, upper and left edge. -/
theorem witness_edge_neighbors :
    Runs (runningWith refC 16 1 0 0) (flight 16 1 0 0) ∧ Fresh (flight 16 1 0 0) ∧
    1 = cellAt 30 0 ∧ 0xBFFFFFFFFFFFFFFF = cellAt 30 (6 * 4 ^ 30 - 1) ∧ 0xB000000000000000 = cellAt 0 5 ∧
    fromFaceIj builtPosLut 0 0 0 = 1 ∧ (faceIjOrientation builtIjLut 1).i = 0 ∧
    (faceIjOrientation builtIjLut 1).j = 0 ∧
    ((List.range 4).all fun k => (candidate refC 0 0 k).isSome) = true ∧
    candidate badC 5 0 0 = none ∧
    (candidate badC (2 ^ 30 - 1) 5 0).isSome = true ∧ candidate badC (2 ^ 30 - 1) 5 1 = none ∧
    (candidate badC 5 (2 ^ 30 - 1) 0).isSome = true ∧ (candidate badC 5 (2 ^ 30 - 1) 1).isSome = true ∧
    candidate badC 5 (2 ^ 30 - 1) 2 = none ∧
    (candidate badC 0 5 0).isSome = true ∧ (candidate badC 0 5 1).isSome = true ∧
    (candidate badC 0 5 2).isSome = true ∧ candidate badC 0 5 3 = none :=
  ⟨witness_runs_with _ _ _ _ _, witness_fresh _ _ _ _, by decide +kernel⟩

/-- A cell whose four candidates stay on its face, with the tables built. -/
theorem witness_neighbors_keep_the_level :
    Runs (running 16 0x89C2585440000000 0 0) (flight 16 0x89C2585440000000 0 0) ∧
    0x89C2585440000000 = cellAt 15 (0x89C2585440000000 / 2 ^ 31) ∧
    0x89C2585440000000 / 2 ^ 31 < 6 * 4 ^ 15 ∧
    ∃ t, exec .edgeNeighbors (running 16 0x89C2585440000000 0 0) = .next t ∧ t.errCode = .noError :=
  ⟨witness_runs _ _ _ _, by decide +kernel, by decide, _, rfl, by decide +kernel⟩

theorem witness_step_keeps_tables_sound : TablesSound idle ∧ ∃ t, step idle = .next t :=
  ⟨⟨by rw [idle, buildTables_posLut]; exact builtPosLut_wf,
    by rw [idle, buildTables_ijLut]; exact builtIjLut_wf,
    fun _ => buildTables_posLut _, fun _ => buildTables_ijLut _, fun _ => rfl⟩, _, rfl⟩

/-- A command in flight that has made its first request. -/
theorem witness_step_keeps_command_sound : CommandSound runningAsking ∧ ∃ t, step runningAsking = .next t := by
  refine ⟨⟨rfl, ?_⟩, _, rfl⟩
  rintro f ⟨⟩
  exact ⟨rfl, fun _ => rfl, witness_exchanges_refine_completion.2.2⟩

theorem witness_step_keeps_outcome_sound : CommandSound runningAsking ∧ OutcomeSound runningAsking ∧
    ∃ t, step runningAsking = .next t :=
  ⟨witness_step_keeps_command_sound.1,
    ⟨fun h => absurd rfl h, .inl rfl, fun h => absurd rfl h, nofun, nofun, fun _ => nofun,
      fun h => absurd rfl h⟩, _, rfl⟩

end Sys2Proof.Tests
end

/-!
The values of binary64 words (00_scope.md R12): which numbers they stand for, and the word built from a
sign and a count of units of `2^q`.
-/

namespace Sys2Proof.Proofs.Binary64

open Sys2Proof Sys2Proof.Machine

/-! ### Signed values -/

theorem finValue_not (s : Bool) (m : Nat) (e : Int) : finValue (!s) m e = -finValue s m e := by
  cases s <;> simp [finValue, signedNat]

theorem cast_finValue_false (m : Nat) (e : Int) : (finValue false m e : ℝ) = m * 2 ^ e := by
  simp [finValue, signedNat]

theorem abs_finValue (s : Bool) (m : Nat) (e : Int) : |finValue s m e| = m * 2 ^ e := by
  cases s <;> simp [finValue, signedNat, abs_mul]

theorem finValue_mul (s1 s2 : Bool) (m1 m2 : Nat) (e1 e2 : Int) :
    finValue (s1 ^^ s2) (m1 * m2) (e1 + e2) = finValue s1 m1 e1 * finValue s2 m2 e2 := by
  have h : (2 : ℚ) ^ (e1 + e2) = 2 ^ e1 * 2 ^ e2 := zpow_add₀ two_ne_zero e1 e2
  cases s1 <;> cases s2 <;> simp [finValue, signedNat, h] <;> ring

/-- The distance of two values is that of their mirror images. -/
theorem abs_finValue_sub_flip (neg s2 : Bool) (m m2 : Nat) (e e2 : Int) :
    |finValue s2 m2 e2 - finValue neg m e| =
      |finValue (s2 ^^ neg) m2 e2 - finValue false m e| := by
  cases neg with
  | false => simp
  | true =>
    have hx : finValue true m e = -finValue false m e := finValue_not false m e
    rw [Bool.xor_true, finValue_not, hx, ← abs_neg]
    ring_nf

theorem two_pow_toNat_sub_mul {K : Type*} [DivisionRing K] [NeZero (2 : K)] {e q : Int} (h : q ≤ e) :
    (2 : K) ^ (e - q).toNat * 2 ^ q = 2 ^ e := by
  rw [← zpow_natCast, ← zpow_add₀ two_ne_zero]
  congr 1
  omega

theorem finValue_alignedInt (s : Bool) (m : Nat) {e base : Int} (h : base ≤ e) :
    (alignedInt s m e base : ℚ) * 2 ^ base = finValue s m e := by
  simp [alignedInt, finValue, mul_assoc, two_pow_toNat_sub_mul h]

theorem finValue_natAbs (v e : Int) : finValue (decide (v < 0)) v.natAbs e = (v : ℚ) * 2 ^ e := by
  have h : signedNat (decide (v < 0)) v.natAbs = v := by
    rcases lt_or_ge v 0 with hv | hv
    · simp [signedNat, hv, abs_of_neg]
    · simp [signedNat, hv, not_lt.mpr hv, abs_of_nonneg]
  rw [finValue, h]

/-! ### The fields of a word -/

theorem f64Exponent_eq (w : Word) : f64Exponent w = w.toNat / 2 ^ 52 % 2 ^ 11 := by
  simp [f64Exponent, BitVec.extractLsb'_toNat, Nat.shiftRight_eq_div_pow]

theorem f64Fraction_eq (w : Word) : f64Fraction w = w.toNat % 2 ^ 52 := by
  simp [f64Fraction, BitVec.extractLsb'_toNat]

theorem f64Sign_eq (w : Word) : f64Sign w = decide (2 ^ 63 ≤ w.toNat) := by
  rw [f64Sign, ← BitVec.msb_eq_getLsbD_last, BitVec.msb_eq_decide]

/-- The finite values are the multiples `m * 2^e` with `m` of at most 53 bits and `e` from -1074 to 971. -/
theorem fin_bounds {w : Word} {s : Bool} {m : Nat} {e : Int} (h : f64Value w = .fin s m e) :
    m < 2 ^ 53 ∧ -1074 ≤ e ∧ e ≤ 971 := by
  have hf : f64Fraction w < 2 ^ 52 := by rw [f64Fraction_eq]; omega
  have he : f64Exponent w < 2 ^ 11 := by rw [f64Exponent_eq]; omega
  unfold f64Value at h
  split at h
  · split at h <;> cases h
  · split at h <;> cases h <;> omega

theorem f64Signed_toNat (neg : Bool) {bits : Nat} (h : bits < 2 ^ 63) :
    (f64Signed neg bits).toNat = (if neg then 2 ^ 63 else 0) + bits := by
  rw [f64Signed, BitVec.toNat_ofNat, Nat.mod_eq_of_lt]
  split <;> omega

theorem f64Sign_f64Signed (neg : Bool) {bits : Nat} (h : bits < 2 ^ 63) :
    f64Sign (f64Signed neg bits) = neg := by
  rw [f64Sign_eq, f64Signed_toNat neg h]
  cases neg with
  | false => simpa using h
  | true => simp

theorem f64Exponent_f64Signed (neg : Bool) {bits : Nat} (h : bits < 2 ^ 63) :
    f64Exponent (f64Signed neg bits) = bits / 2 ^ 52 := by
  rw [f64Exponent_eq, f64Signed_toNat neg h]
  split <;> omega

theorem f64Fraction_f64Signed (neg : Bool) {bits : Nat} (h : bits < 2 ^ 63) :
    f64Fraction (f64Signed neg bits) = bits % 2 ^ 52 := by
  rw [f64Fraction_eq, f64Signed_toNat neg h]
  split <;> omega

@[simp] theorem f64Value_f64Inf (neg : Bool) : f64Value (f64Inf neg) = .inf neg := by
  cases neg <;> decide

theorem f64Value_f64Signed (neg : Bool) {bits : Nat} (h : bits < 2047 * 2 ^ 52) :
    f64Value (f64Signed neg bits) =
      if bits / 2 ^ 52 = 0 then .fin neg (bits % 2 ^ 52) (-1074)
      else .fin neg (2 ^ 52 + bits % 2 ^ 52) ((bits / 2 ^ 52 : Nat) - 1075) := by
  have hb : bits < 2 ^ 63 := by omega
  have hinf : bits / 2 ^ 52 ≠ 2047 := by omega
  rw [f64Value, f64Exponent_f64Signed neg hb, f64Fraction_f64Signed neg hb, f64Sign_f64Signed neg hb,
    if_neg hinf]

theorem f64Value_f64Neg {w : Word} {s : Bool} {m : Nat} {e : Int} (h : f64Value w = .fin s m e) :
    f64Value (f64Neg w) = .fin (!s) m e := by
  have hexp : f64Exponent (f64Neg w) = f64Exponent w := by
    rw [f64Exponent, f64Neg, BitVec.extractLsb'_xor,
      show (1#64 <<< 63).extractLsb' 52 11 = 0#11 by decide, BitVec.xor_zero, f64Exponent]
  have hfrac : f64Fraction (f64Neg w) = f64Fraction w := by
    rw [f64Fraction, f64Neg, BitVec.extractLsb'_xor,
      show (1#64 <<< 63).extractLsb' 0 52 = 0#52 by decide, BitVec.xor_zero, f64Fraction]
  have hsign : f64Sign (f64Neg w) = !f64Sign w := by simp [f64Sign, f64Neg]
  unfold f64Value at h ⊢
  rw [hexp, hfrac, hsign]
  split at h
  · split at h <;> cases h
  · split at h <;> cases h <;> simp_all

/-- The word of `n` units of `2^q`: the hidden bit of `n`, and the carry when `n` is `2^53`, add into the
exponent field. -/
theorem f64Value_of_units (neg : Bool) {t n : Nat} (hn : n ≤ 2 ^ 53) (hnormal : 0 < t → 2 ^ 52 ≤ n)
    (hbits : t * 2 ^ 52 + n < 2047 * 2 ^ 52) :
    ∃ m e, f64Value (f64Signed neg (t * 2 ^ 52 + n)) = .fin neg m e ∧
      finValue neg m e = finValue neg n (t - 1074) := by
  rw [f64Value_f64Signed neg hbits]
  obtain hsub | hnorm | hcarry : n < 2 ^ 52 ∨ (2 ^ 52 ≤ n ∧ n < 2 ^ 53) ∨ n = 2 ^ 53 := by omega
  · obtain rfl : t = 0 := by omega
    have hdiv : (0 * 2 ^ 52 + n) / 2 ^ 52 = 0 := by omega
    have hmod : (0 * 2 ^ 52 + n) % 2 ^ 52 = n := by omega
    rw [hdiv, hmod, if_pos rfl]
    exact ⟨n, -1074, rfl, by simp⟩
  · have hdiv : (t * 2 ^ 52 + n) / 2 ^ 52 = t + 1 := by omega
    have hmod : 2 ^ 52 + (t * 2 ^ 52 + n) % 2 ^ 52 = n := by omega
    have hexp : ((t + 1 : Nat) : Int) - 1075 = t - 1074 := by omega
    rw [hdiv, hmod, if_neg t.succ_ne_zero, hexp]
    exact ⟨n, t - 1074, rfl, rfl⟩
  · have hdiv : (t * 2 ^ 52 + n) / 2 ^ 52 = t + 2 := by omega
    have hmod : (t * 2 ^ 52 + n) % 2 ^ 52 = 0 := by omega
    have hexp : ((t + 2 : Nat) : Int) - 1075 = 1 + (t - 1074) := by omega
    rw [hdiv, hmod, if_neg (t + 1).succ_ne_zero, hexp, hcarry]
    refine ⟨_, _, rfl, ?_⟩
    cases neg <;> simp [finValue, signedNat, zpow_add₀] <;> ring

/-- Every finite binary64 value counts units of `2^q`, or is below the binade that has this unit. -/
theorem finValue_count_or_lt_binade {w : Word} {s : Bool} {m : Nat} {e q : Int}
    (hw : f64Value w = .fin s m e) (hq : -1074 ≤ q) :
    (∃ k : Int, (finValue s m e : ℝ) = k * 2 ^ q) ∨
      (-1074 < q ∧ (finValue s m e : ℝ) < 2 ^ 52 * 2 ^ q) := by
  obtain ⟨hm, he, -⟩ := fin_bounds hw
  rcases le_or_gt q e with hqe | hqe
  · refine .inl ⟨alignedInt s m e q, ?_⟩
    rw [← finValue_alignedInt s m hqe]
    push_cast; rfl
  · refine .inr ⟨by omega, ?_⟩
    have hu : (0 : ℝ) < 2 ^ e := zpow_pos two_pos _
    have hm' : (m : ℝ) < 2 ^ 53 := by exact_mod_cast hm
    have hle : (2 : ℝ) ^ (e + 1) ≤ 2 ^ q := zpow_le_zpow_right₀ one_le_two (by omega)
    rw [zpow_add_one₀ two_ne_zero] at hle
    calc (finValue s m e : ℝ) ≤ |(finValue s m e : ℝ)| := le_abs_self _
      _ = m * 2 ^ e := by rw [← Rat.cast_abs, abs_finValue]; push_cast; rfl
      _ < 2 ^ 53 * 2 ^ e := mul_lt_mul_of_pos_right hm' hu
      _ ≤ 2 ^ 52 * 2 ^ q := by linarith

end Sys2Proof.Proofs.Binary64

/-!
What the one rounding of an operation does with an exact magnitude (00_scope.md R12, 41_projection.md R140),
stated over the reals so that it also covers the irrational roots.
-/

namespace Sys2Proof.Proofs.Binary64

open Sys2Proof Sys2Proof.Machine

/-- `n` units of `2^q` are the rounding of the magnitude `x`: the unit is binary64's for `x`, and `n` is a
nearest count, the even one of two. -/
structure RoundsTo (q : Int) (n : Nat) (x : ℝ) : Prop where
  subnormal : -1074 ≤ q
  below : x < 2 ^ 53 * 2 ^ q
  normal : -1074 < q → 2 ^ 52 * 2 ^ q ≤ x
  half : |n * 2 ^ q - x| ≤ 2 ^ q / 2
  even : |n * 2 ^ q - x| = 2 ^ q / 2 → n % 2 = 0

namespace RoundsTo

variable {q : Int} {n : Nat} {x : ℝ}

theorem units_le (h : RoundsTo q n x) : n ≤ 2 ^ 53 := by
  by_contra hlt
  have hn : (2 : ℝ) ^ 53 + 1 ≤ n := by exact_mod_cast not_le.mp hlt
  have hu : (0 : ℝ) < 2 ^ q := zpow_pos two_pos q
  have hmul := mul_le_mul_of_nonneg_right hn hu.le
  have := (abs_le.mp h.half).2
  linarith [h.below]

theorem le_units (h : RoundsTo q n x) (hq : -1074 < q) : 2 ^ 52 ≤ n := by
  by_contra hlt
  have hn : (n : ℝ) + 1 ≤ 2 ^ 52 := by exact_mod_cast not_le.mp hlt
  have hu : (0 : ℝ) < 2 ^ q := zpow_pos two_pos q
  have hmul := mul_le_mul_of_nonneg_right hn hu.le
  have := (abs_le.mp h.half).1
  linarith [h.normal hq]

/-- Another count of the same unit is at least half a unit away. -/
theorem half_le_of_ne (h : RoundsTo q n x) {k : Int} (hk : k ≠ n) : 2 ^ q / 2 ≤ |(k : ℝ) * 2 ^ q - x| := by
  have hu : (0 : ℝ) < 2 ^ q := zpow_pos two_pos q
  have hgap : 1 ≤ |(k : ℝ) - n| := by exact_mod_cast Int.one_le_abs (sub_ne_zero.mpr hk)
  have hunit : (2 : ℝ) ^ q ≤ |(k : ℝ) * 2 ^ q - n * 2 ^ q| := by
    rw [← sub_mul, abs_mul, abs_of_pos hu]
    exact le_mul_of_one_le_left hu.le hgap
  have htri := abs_sub_le ((k : ℝ) * 2 ^ q) x (n * 2 ^ q)
  rw [abs_sub_comm x] at htri
  linarith [h.half]

theorem le_count (h : RoundsTo q n x) (k : Int) : |n * 2 ^ q - x| ≤ |(k : ℝ) * 2 ^ q - x| := by
  by_cases hk : k = n
  · simp [hk]
  · exact h.half.trans (h.half_le_of_ne hk)

/-- A value below the binade of `x` lies strictly further away. -/
theorem lt_of_lt_binade (h : RoundsTo q n x) (hq : -1074 < q) {v : ℝ} (hv : v < 2 ^ 52 * 2 ^ q) :
    |n * 2 ^ q - x| < |v - x| := by
  have hx := h.normal hq
  have hedge : |n * 2 ^ q - x| ≤ x - 2 ^ 52 * 2 ^ q := by
    have := h.le_count ((2 ^ 52 : Nat) : Int)
    rwa [Int.cast_natCast, Nat.cast_pow, Nat.cast_ofNat, abs_sub_comm (2 ^ 52 * 2 ^ q : ℝ),
      abs_of_nonneg (sub_nonneg.mpr hx)] at this
  calc |n * 2 ^ q - x| ≤ x - 2 ^ 52 * 2 ^ q := hedge
    _ < x - v := by linarith
    _ ≤ |v - x| := by rw [abs_sub_comm]; exact le_abs_self _

/-- 00_scope.md R12: no finite binary64 value lies closer. -/
theorem nearest (h : RoundsTo q n x) {w : Word} {s : Bool} {m : Nat} {e : Int}
    (hw : f64Value w = .fin s m e) : |n * 2 ^ q - x| ≤ |(finValue s m e : ℝ) - x| := by
  obtain ⟨k, hk⟩ | ⟨hq, hlt⟩ := finValue_count_or_lt_binade hw h.subnormal
  · rw [hk]; exact h.le_count k
  · exact (h.lt_of_lt_binade hq hlt).le

/-- 00_scope.md R12: where another value lies as close, the count is even. -/
theorem even_of_tie (h : RoundsTo q n x) {w : Word} {s : Bool} {m : Nat} {e : Int}
    (hw : f64Value w = .fin s m e) (htie : |n * 2 ^ q - x| = |(finValue s m e : ℝ) - x|)
    (hne : n * 2 ^ q ≠ (finValue s m e : ℝ)) : n % 2 = 0 := by
  obtain ⟨k, hk⟩ | ⟨hq, hlt⟩ := finValue_count_or_lt_binade hw h.subnormal
  · have hkn : k ≠ n := by
      rintro rfl
      simp [hk] at hne
    exact h.even (h.half.antisymm (by rw [htie, hk]; exact h.half_le_of_ne hkn))
  · exact absurd htie (h.lt_of_lt_binade hq hlt).ne

/-- In the last binade: the count carries out of it from the midpoint of its last count `2^53 - 1`, which
is odd, and `2^53` on. -/
theorem last_binade_carries_iff (h : RoundsTo 971 n x) :
    n = 2 ^ 53 ↔ (2 ^ 54 - 1) * 2 ^ (970 : Int) ≤ x := by
  have hunit : (2 : ℝ) ^ (971 : Int) = 2 * 2 ^ (970 : Int) := zpow_one_add₀ two_ne_zero 970
  have hu : (0 : ℝ) < 2 ^ (970 : Int) := zpow_pos two_pos _
  have hn := h.units_le
  have hhalf := h.half
  have heven := h.even
  rw [hunit] at hhalf heven
  generalize (2 : ℝ) ^ (970 : Int) = u at hu hhalf heven ⊢
  constructor
  · rintro rfl
    have := (abs_le.mp hhalf).2
    push_cast at this
    linarith
  · intro hx
    by_contra hne
    have hfar := (abs_le.mp hhalf).1
    obtain rfl | hless : n = 2 ^ 53 - 1 ∨ n + 2 ≤ 2 ^ 53 := by omega
    · push_cast at hfar heven
      have := heven (by rw [abs_of_nonpos] <;> linarith)
      omega
    · have hn' : (n : ℝ) + 2 ≤ 2 ^ 53 := by exact_mod_cast hless
      have hmul := mul_le_mul_of_nonneg_right hn' hu.le
      linarith

/-- Past the largest finite value by half a unit or more, the encoding overflows, and not before. -/
theorem overflow_iff (h : RoundsTo q n x) :
    2047 * 2 ^ 52 ≤ (q + 1074).toNat * 2 ^ 52 + n ↔ (2 ^ 54 - 1) * 2 ^ (970 : Int) ≤ x := by
  have hlow := h.subnormal
  have hn := h.units_le
  have hu : (0 : ℝ) < 2 ^ (970 : Int) := zpow_pos two_pos _
  obtain hq | rfl | hq : q ≤ 970 ∨ q = 971 ∨ 972 ≤ q := by omega
  · have hunit : (2 : ℝ) ^ q ≤ 2 ^ (970 : Int) := zpow_le_zpow_right₀ one_le_two hq
    have hx := h.below
    refine iff_of_false (by omega) (not_le.mpr ?_)
    generalize (2 : ℝ) ^ (970 : Int) = u at hu hunit ⊢
    linarith
  · rw [← h.last_binade_carries_iff]
    omega
  · have hunit : (2 : ℝ) ^ (2 + 970 : Int) ≤ 2 ^ q := zpow_le_zpow_right₀ one_le_two (by omega)
    rw [zpow_add₀ two_ne_zero, zpow_ofNat] at hunit
    have hmin := h.le_units (by omega)
    have hx := h.normal (by omega)
    refine iff_of_true (by omega) ?_
    generalize (2 : ℝ) ^ (970 : Int) = u at hu hunit ⊢
    linarith

end RoundsTo

end Sys2Proof.Proofs.Binary64

/-!
The model's rounding `f64Round` meets `RoundsTo` (41_projection.md R140).
-/

namespace Sys2Proof.Proofs.Binary64

open Sys2Proof Sys2Proof.Machine

/-- The rounded count is off by some `r` of at most half a unit, and it is even when `r` is half a unit. -/
theorem roundHalfEven_off_by (m d : Nat) :
    ∃ r, (roundHalfEven m d * 2 ^ d + r = m ∨ roundHalfEven m d * 2 ^ d = m + r) ∧
      2 * r ≤ 2 ^ d ∧ (2 * r = 2 ^ d → roundHalfEven m d % 2 = 0) := by
  have hm := Nat.div_add_mod' m (2 ^ d)
  have hlt := Nat.mod_lt m (Nat.two_pow_pos d)
  simp only [roundHalfEven]
  split
  · refine ⟨2 ^ d - m % 2 ^ d, .inr ?_, by omega, by omega⟩
    rw [Nat.succ_mul]
    omega
  · exact ⟨m % 2 ^ d, .inl hm, by omega, by omega⟩

theorem abs_roundHalfEven_sub (m d : Nat) :
    |(roundHalfEven m d : ℝ) * 2 ^ d - m| ≤ 2 ^ d / 2 ∧
      (|(roundHalfEven m d : ℝ) * 2 ^ d - m| = 2 ^ d / 2 → roundHalfEven m d % 2 = 0) := by
  obtain ⟨r, hoff, hle, heven⟩ := roundHalfEven_off_by m d
  have hdist : |(roundHalfEven m d : ℝ) * 2 ^ d - m| = r := by
    rcases hoff with h | h
    · have h' : (roundHalfEven m d : ℝ) * 2 ^ d + r = m := by exact_mod_cast h
      rw [← h', sub_add_cancel_left, abs_neg, Nat.abs_cast]
    · have h' : (roundHalfEven m d : ℝ) * 2 ^ d = m + r := by exact_mod_cast h
      rw [h', add_sub_cancel_left, Nat.abs_cast]
  rw [hdist, le_div_iff₀' two_pos, eq_div_iff two_ne_zero, mul_comm (r : ℝ)]
  exact ⟨by exact_mod_cast hle, fun h => heven (by exact_mod_cast h)⟩

theorem abs_f64Scaled_sub (m : Nat) (e q : Int) :
    |(f64Scaled m e q : ℝ) * 2 ^ q - m * 2 ^ e| ≤ 2 ^ q / 2 ∧
      (|(f64Scaled m e q : ℝ) * 2 ^ q - m * 2 ^ e| = 2 ^ q / 2 → f64Scaled m e q % 2 = 0) := by
  rw [f64Scaled]
  split
  case isTrue hqe =>
    have hexact : ((m * 2 ^ (e - q).toNat : Nat) : ℝ) * 2 ^ q = m * 2 ^ e := by
      rw [Nat.cast_mul, Nat.cast_pow, Nat.cast_ofNat, mul_assoc, two_pow_toNat_sub_mul hqe]
    have hu : (0 : ℝ) < 2 ^ q := zpow_pos two_pos _
    rw [hexact, sub_self, abs_zero]
    exact ⟨by positivity, fun h => absurd h (by positivity)⟩
  case isFalse hqe =>
    have hu : (0 : ℝ) < 2 ^ e := zpow_pos two_pos _
    have hpow : (2 : ℝ) ^ (q - e).toNat * 2 ^ e = 2 ^ q := two_pow_toNat_sub_mul (not_le.mp hqe).le
    rw [← hpow, ← mul_assoc, ← sub_mul, abs_mul, abs_of_pos hu, mul_div_right_comm,
      mul_le_mul_iff_left₀ hu, mul_left_inj' hu.ne']
    exact abs_roundHalfEven_sub m _

/-- 41_projection.md R140: the unit is that of 53 significant bits, or of the subnormals. -/
theorem f64Quantum_binade {m : Nat} (hm : m ≠ 0) (e : Int) :
    (m : ℝ) * 2 ^ e < 2 ^ 53 * 2 ^ f64Quantum m e ∧
      (-1074 < f64Quantum m e → 2 ^ 52 * 2 ^ f64Quantum m e ≤ (m : ℝ) * 2 ^ e) := by
  have hu : (0 : ℝ) < 2 ^ e := zpow_pos two_pos _
  have hlow : (2 : ℝ) ^ Nat.log2 m ≤ m := by exact_mod_cast Nat.log2_self_le hm
  have hhigh : (m : ℝ) < 2 ^ (Nat.log2 m + 1) := by exact_mod_cast Nat.lt_log2_self
  constructor
  · calc (m : ℝ) * 2 ^ e < 2 ^ (Nat.log2 m + 1) * 2 ^ e := mul_lt_mul_of_pos_right hhigh hu
      _ = 2 ^ ((Nat.log2 m + 1 : Nat) + e) := by rw [zpow_add₀ two_ne_zero, zpow_natCast]
      _ ≤ 2 ^ (53 + f64Quantum m e) :=
        zpow_le_zpow_right₀ one_le_two (by simp only [f64Quantum]; omega)
      _ = 2 ^ 53 * 2 ^ f64Quantum m e := by rw [zpow_add₀ two_ne_zero, zpow_ofNat]
  · intro hq
    calc (2 : ℝ) ^ 52 * 2 ^ f64Quantum m e = 2 ^ (52 + f64Quantum m e) := by
          rw [zpow_add₀ two_ne_zero, zpow_ofNat]
      _ = 2 ^ (Nat.log2 m + e) := by
        congr 1
        simp only [f64Quantum] at hq ⊢
        omega
      _ = 2 ^ Nat.log2 m * 2 ^ e := by rw [zpow_add₀ two_ne_zero, zpow_natCast]
      _ ≤ m * 2 ^ e := mul_le_mul_of_nonneg_right hlow hu.le

/-- The rounding of a magnitude that is not zero: its unit and its count of units. -/
theorem f64Scaled_roundsTo {m : Nat} (hm : m ≠ 0) (e : Int) :
    RoundsTo (f64Quantum m e) (f64Scaled m e (f64Quantum m e)) (m * 2 ^ e) where
  subnormal := le_max_right _ _
  below := (f64Quantum_binade hm e).1
  normal := (f64Quantum_binade hm e).2
  half := (abs_f64Scaled_sub m e _).1
  even := (abs_f64Scaled_sub m e _).2

theorem zero_roundsTo : RoundsTo (-1074) 0 0 where
  subnormal := le_rfl
  below := by positivity
  normal := nofun
  half := by simp; positivity
  even := fun _ => rfl

/-- The word of `n` units of `2^q` with a sign; the infinity when the exponent field overflows. -/
def packUnits (neg : Bool) (q : Int) (n : Nat) : Word :=
  let bits := (q + 1074).toNat * 2 ^ 52 + n
  if 2047 * 2 ^ 52 ≤ bits then f64Inf neg else f64Signed neg bits

/-- 41_projection.md R140: the one rounding of an operation, for every exact magnitude. -/
theorem f64Round_eq_packUnits (m : Nat) (e : Int) :
    ∃ q n, RoundsTo q n (m * 2 ^ e) ∧ ∀ neg, f64Round neg m e = packUnits neg q n := by
  by_cases hm : m = 0
  · subst hm
    refine ⟨-1074, 0, by simpa using zero_roundsTo, fun neg => ?_⟩
    simp [f64Round, packUnits, f64Zero]
  · exact ⟨_, _, f64Scaled_roundsTo hm e, fun neg => by rw [f64Round, if_neg hm]; rfl⟩

section
variable {q : Int} {n : Nat} {x : ℝ} (h : RoundsTo q n x) (neg : Bool)
include h

theorem packUnits_of_overflow (hx : (2 ^ 54 - 1) * 2 ^ (970 : Int) ≤ x) :
    packUnits neg q n = f64Inf neg :=
  if_pos (h.overflow_iff.mpr hx)

theorem packUnits_of_lt (hx : x < (2 ^ 54 - 1) * 2 ^ (970 : Int)) :
    packUnits neg q n = f64Signed neg ((q + 1074).toNat * 2 ^ 52 + n) :=
  if_neg fun hb => absurd (h.overflow_iff.mp hb) (not_le.mpr hx)

/-- Where the rounding does not overflow it is the finite value of `n` units. -/
theorem f64Value_packUnits (hx : x < (2 ^ 54 - 1) * 2 ^ (970 : Int)) :
    ∃ m e, f64Value (packUnits neg q n) = .fin neg m e ∧ finValue neg m e = finValue neg n q := by
  have hq := h.subnormal
  have hbits := mt h.overflow_iff.mp (not_le.mpr hx)
  obtain ⟨m, e, hval, heq⟩ := f64Value_of_units neg h.units_le (t := (q + 1074).toNat)
    (fun ht => h.le_units (by omega)) (by omega)
  refine ⟨m, e, by rw [packUnits_of_lt h neg hx, hval], ?_⟩
  rw [heq]
  congr 1
  omega

/-- A finite rounding did not overflow. -/
theorem lt_of_packUnits_fin {s : Bool} {m : Nat} {e : Int}
    (hfin : f64Value (packUnits neg q n) = .fin s m e) : x < (2 ^ 54 - 1) * 2 ^ (970 : Int) := by
  by_contra hx
  rw [packUnits_of_overflow h neg (not_lt.mp hx), f64Value_f64Inf] at hfin
  cases hfin

theorem finValue_packUnits {s : Bool} {m : Nat} {e : Int}
    (hfin : f64Value (packUnits neg q n) = .fin s m e) :
    s = neg ∧ finValue s m e = finValue neg n q := by
  obtain ⟨m', e', hval, heq⟩ := f64Value_packUnits h neg (lt_of_packUnits_fin h neg hfin)
  rw [hfin] at hval
  cases hval
  exact ⟨rfl, heq⟩

end

theorem f64Signed_even (neg : Bool) {t n : Nat} (hn : n % 2 = 0) :
    (f64Signed neg (t * 2 ^ 52 + n)).getLsbD 0 = false := by
  rw [BitVec.getLsbD, Nat.testBit_zero, f64Signed, BitVec.toNat_ofNat]
  split <;> simp <;> omega

end Sys2Proof.Proofs.Binary64

/-!
Sums, differences and products: one rounding, to a nearest value, with ties to even (00_scope.md R12,
41_projection.md R140).
-/

namespace Sys2Proof.Proofs.Binary64

open Sys2Proof Sys2Proof.Machine

/-- A finite rounding, taken apart. -/
theorem f64Round_fin {neg : Bool} {m : Nat} {e : Int} {s1 : Bool} {m1 : Nat} {e1 : Int}
    (hfin : f64Value (f64Round neg m e) = .fin s1 m1 e1) :
    ∃ q n, RoundsTo q n (m * 2 ^ e) ∧ f64Round neg m e = f64Signed neg ((q + 1074).toNat * 2 ^ 52 + n) ∧
      s1 = neg ∧ finValue s1 m1 e1 = finValue neg n q := by
  obtain ⟨q, n, hr, hpack⟩ := f64Round_eq_packUnits m e
  rw [hpack] at hfin ⊢
  exact ⟨q, n, hr, packUnits_of_lt hr neg (lt_of_packUnits_fin hr neg hfin), finValue_packUnits hr neg hfin⟩

/-- Every finite value's mirror image is one. -/
theorem exists_fin_xor {w : Word} {s : Bool} {m : Nat} {e : Int} (h : f64Value w = .fin s m e)
    (neg : Bool) : ∃ w', f64Value w' = .fin (s ^^ neg) m e := by
  cases neg with
  | false => exact ⟨w, by simpa using h⟩
  | true => exact ⟨f64Neg w, by simpa using f64Value_f64Neg h⟩

theorem finValue_xor_inj {s1 s2 : Bool} {m1 m2 : Nat} {e1 e2 : Int} (neg : Bool) :
    finValue (s1 ^^ neg) m1 e1 = finValue (s2 ^^ neg) m2 e2 ↔ finValue s1 m1 e1 = finValue s2 m2 e2 := by
  cases neg <;> simp [finValue_not]

/-- A distance to a signed value, seen as one to its magnitude in the reals. -/
theorem cast_abs_finValue_sub (neg s2 : Bool) (m m2 : Nat) (e e2 : Int) :
    (|finValue s2 m2 e2 - finValue neg m e| : ℚ) =
      |(finValue (s2 ^^ neg) m2 e2 : ℝ) - m * 2 ^ e| := by
  rw [abs_finValue_sub_flip, Rat.cast_abs, Rat.cast_sub, cast_finValue_false]

/-- The same of the rounded value, which has the sign of the exact one. -/
theorem cast_abs_units_sub (neg : Bool) (n m : Nat) (q e : Int) :
    (|finValue neg n q - finValue neg m e| : ℚ) = |(n : ℝ) * 2 ^ q - m * 2 ^ e| := by
  rw [cast_abs_finValue_sub, Bool.xor_self, cast_finValue_false]

theorem f64Round_nearest {neg : Bool} {m : Nat} {e : Int} {s1 : Bool} {m1 : Nat} {e1 : Int}
    (hfin : f64Value (f64Round neg m e) = .fin s1 m1 e1) {w : Word} {s2 : Bool} {m2 : Nat} {e2 : Int}
    (hw : f64Value w = .fin s2 m2 e2) :
    |finValue s1 m1 e1 - finValue neg m e| ≤ |finValue s2 m2 e2 - finValue neg m e| := by
  obtain ⟨q, n, hr, -, -, hval⟩ := f64Round_fin hfin
  obtain ⟨w', hw'⟩ := exists_fin_xor hw neg
  rw [hval, ← Rat.cast_le (K := ℝ), cast_abs_units_sub, cast_abs_finValue_sub]
  exact hr.nearest hw'

/-- Settles O36: a tie leaves the count of units even, and the count is the low end of the encoding. -/
theorem tiesGoToEven : Obligations.TiesGoToEven := by
  intro neg m e s1 m1 e1 hfin w s2 m2 e2 hw htie hne
  obtain ⟨q, n, hr, hword, -, hval⟩ := f64Round_fin hfin
  obtain ⟨w', hw'⟩ := exists_fin_xor hw neg
  rw [hword]
  apply f64Signed_even
  apply hr.even_of_tie hw'
  · rw [← cast_abs_units_sub neg, ← cast_abs_finValue_sub, ← hval, htie]
  · rw [← cast_finValue_false, Rat.cast_inj.ne, ← Bool.xor_self neg, (finValue_xor_inj neg).ne, ← hval]
    exact hne

/-! ### The range of the rounding -/

theorem cast_overflow_threshold :
    ((2 ^ 1024 - 2 ^ 970 : ℚ) : ℝ) = (2 ^ 54 - 1) * 2 ^ (970 : Int) := by
  have h : (2 : ℝ) ^ 1024 = 2 ^ 54 * 2 ^ 970 := by rw [← pow_add]
  rw [Rat.cast_sub, Rat.cast_pow, Rat.cast_pow, Rat.cast_ofNat, h, zpow_ofNat, sub_mul, one_mul]

theorem abs_finValue_lt_threshold_iff (neg : Bool) (m : Nat) (e : Int) :
    |finValue neg m e| < 2 ^ 1024 - 2 ^ 970 ↔ (m : ℝ) * 2 ^ e < (2 ^ 54 - 1) * 2 ^ (970 : Int) := by
  rw [← Rat.cast_lt (K := ℝ), cast_overflow_threshold, abs_finValue, Rat.cast_mul, Rat.cast_zpow,
    Rat.cast_natCast, Rat.cast_ofNat]

theorem f64Round_finite (neg : Bool) {m : Nat} {e : Int} (h : |finValue neg m e| < 2 ^ 1024 - 2 ^ 970) :
    ∃ s1 m1 e1, f64Value (f64Round neg m e) = .fin s1 m1 e1 := by
  obtain ⟨q, n, hr, hpack⟩ := f64Round_eq_packUnits m e
  obtain ⟨m1, e1, hval, -⟩ := f64Value_packUnits hr neg ((abs_finValue_lt_threshold_iff neg m e).mp h)
  exact ⟨neg, m1, e1, by rw [hpack, hval]⟩

theorem f64Round_overflow (neg : Bool) {m : Nat} {e : Int} (h : 2 ^ 1024 - 2 ^ 970 ≤ |finValue neg m e|) :
    f64Round neg m e = f64Inf neg := by
  obtain ⟨q, n, hr, hpack⟩ := f64Round_eq_packUnits m e
  rw [hpack]
  exact packUnits_of_overflow hr neg
    (not_lt.mp (mt (abs_finValue_lt_threshold_iff neg m e).mpr (not_lt.mpr h)))

/-! ### The operations on finite values -/

section
variable {a b : Word} {s1 s2 : Bool} {m1 m2 : Nat} {e1 e2 : Int}

theorem f64Mul_fin (ha : f64Value a = .fin s1 m1 e1) (hb : f64Value b = .fin s2 m2 e2) :
    f64Mul a b = f64Round (s1 ^^ s2) (m1 * m2) (e1 + e2) := by
  rw [f64Mul, ha, hb]

theorem f64Add_fin (ha : f64Value a = .fin s1 m1 e1) (hb : f64Value b = .fin s2 m2 e2) :
    f64Add a b = f64AddFin s1 m1 e1 s2 m2 e2 := by
  rw [f64Add, ha, hb]

/-- A sum is rounded once from its exact value, and an exact zero has the sign IEEE 754 gives. -/
theorem f64Add_exact (ha : f64Value a = .fin s1 m1 e1) (hb : f64Value b = .fin s2 m2 e2) :
    (finValue s1 m1 e1 + finValue s2 m2 e2 ≠ 0 →
      ∃ neg m e, finValue neg m e = finValue s1 m1 e1 + finValue s2 m2 e2 ∧
        f64Add a b = f64Round neg m e) ∧
    (finValue s1 m1 e1 + finValue s2 m2 e2 = 0 → f64Add a b = f64Zero (s1 && s2)) := by
  let base := min e1 e2
  let v := alignedInt s1 m1 e1 base + alignedInt s2 m2 e2 base
  have hsum : finValue s1 m1 e1 + finValue s2 m2 e2 = (v : ℚ) * 2 ^ base := by
    rw [← finValue_alignedInt s1 m1 (min_le_left e1 e2), ← finValue_alignedInt s2 m2 (min_le_right e1 e2),
      ← add_mul, ← Int.cast_add]
  have hzero : finValue s1 m1 e1 + finValue s2 m2 e2 = 0 ↔ v = 0 := by
    rw [hsum, mul_eq_zero_iff_right (zpow_ne_zero _ two_ne_zero), Int.cast_eq_zero]
  rw [f64Add_fin ha hb]
  constructor
  · intro h
    exact ⟨decide (v < 0), v.natAbs, base, by rw [finValue_natAbs, hsum], if_neg (mt hzero.mpr h)⟩
  · exact fun h => if_pos (hzero.mp h)

end

/-- Settles O35: `RoundsTo.nearest` for the rounding, `RoundsTo.overflow_iff` for its range, and the exact
value of each operation. -/
theorem roundingIsNearest : Obligations.RoundingIsNearest := by
  refine ⟨fun neg m e s1 m1 e1 hfin => ?_, fun neg m e => ⟨f64Round_finite neg, f64Round_overflow neg⟩, ?_⟩
  · obtain ⟨-, -, -, -, hs, -⟩ := f64Round_fin hfin
    exact ⟨hs, fun w s2 m2 e2 hw => f64Round_nearest hfin hw⟩
  · rintro a b s1 m1 e1 s2 m2 e2 x y ha hb rfl rfl
    have hsub := f64Add_exact ha (f64Value_f64Neg hb)
    rw [finValue_not, ← sub_eq_add_neg] at hsub
    obtain ⟨hadd, hadd0⟩ := f64Add_exact ha hb
    exact ⟨⟨_, _, finValue_mul .., f64Mul_fin ha hb⟩, hadd, hadd0, hsub.1, hsub.2⟩

end Sys2Proof.Proofs.Binary64

/-!
The square root (00_scope.md R12, 41_projection.md R140): the bit-by-bit integer root is the floor, and one
sticky bit below it is enough to round the real root.
-/

namespace Sys2Proof.Proofs.Binary64

open Sys2Proof Sys2Proof.Machine

/-! ### The integer root -/

theorem isqrtBits_floor (n k : Nat) : ∀ r, r * r ≤ n → n < (r + 2 ^ k) * (r + 2 ^ k) →
    isqrtBits n k r * isqrtBits n k r ≤ n ∧ n < (isqrtBits n k r + 1) * (isqrtBits n k r + 1) := by
  induction k with
  | zero => exact fun r hlow hhigh => ⟨hlow, hhigh⟩
  | succ k ih =>
    intro r hlow hhigh
    rw [isqrtBits]
    split
    case isTrue hbit => exact ih _ hbit (by rwa [add_assoc, ← two_mul, ← pow_succ'])
    case isFalse hbit => exact ih _ hlow (not_le.mp hbit)

theorem isqrt_floor (n : Nat) : isqrt n * isqrt n ≤ n ∧ n < (isqrt n + 1) * (isqrt n + 1) := by
  refine isqrtBits_floor n _ 0 (Nat.zero_le _) ?_
  calc n < 2 ^ (Nat.log2 n + 1) := Nat.lt_log2_self
    _ ≤ 2 ^ (Nat.log2 n / 2 + 1 + (Nat.log2 n / 2 + 1)) := Nat.pow_le_pow_right two_pos (by omega)
    _ = (0 + 2 ^ (Nat.log2 n / 2 + 1)) * (0 + 2 ^ (Nat.log2 n / 2 + 1)) := by rw [zero_add, pow_add]

theorem isqrt_eq_sqrt (n : Nat) : isqrt n = Nat.sqrt n :=
  Nat.eq_sqrt.mpr (isqrt_floor n)

/-! ### The sticky bit -/

section
variable {q e : Int} {n M : Nat} {x : ℝ} (hodd : M % 2 = 1) (hq : e + 2 ≤ q)
  (hx : |x - M * 2 ^ e| < 2 ^ e)
include hodd hq hx

/-- Every bound and midpoint of a rounding to `2^q` counts half units, an even number of units of `2^e`; so
`x` lies on the same side of it as the odd count that `x` is near. -/
theorem half_units_lt_of_near_odd (j : Int) :
    ((j : ℝ) * (2 ^ q / 2) ≤ M * 2 ^ e → (j : ℝ) * (2 ^ q / 2) < x) ∧
      ((M : ℝ) * 2 ^ e ≤ j * (2 ^ q / 2) → x < j * (2 ^ q / 2)) := by
  obtain ⟨d, rfl⟩ := Int.le.dest hq
  have hu : (0 : ℝ) < 2 ^ e := zpow_pos two_pos _
  have hhalf : (j : ℝ) * (2 ^ (e + 2 + d) / 2) = (2 * (j * 2 ^ d) : Int) * 2 ^ e := by
    rw [zpow_add₀ two_ne_zero, zpow_add₀ two_ne_zero, zpow_natCast, zpow_ofNat]
    push_cast
    ring
  obtain ⟨hlow, hhigh⟩ := abs_lt.mp hx
  rw [hhalf, mul_le_mul_iff_left₀ hu, mul_le_mul_iff_left₀ hu]
  generalize j * 2 ^ d = k
  constructor
  · intro hk
    have hk' : 2 * k ≤ M := by exact_mod_cast hk
    have hgap : ((2 * k : Int) : ℝ) + 1 ≤ M := by exact_mod_cast (by omega : 2 * k + 1 ≤ M)
    linarith [mul_le_mul_of_nonneg_right hgap hu.le]
  · intro hk
    have hk' : M ≤ 2 * k := by exact_mod_cast hk
    have hgap : (M : ℝ) + 1 ≤ (2 * k : Int) := by exact_mod_cast (by omega : M + 1 ≤ 2 * k)
    linarith [mul_le_mul_of_nonneg_right hgap hu.le]

/-- The sticky bit suffices: an odd count of units of `2^e`, with two bits or more below the last place of
its rounding, rounds as every magnitude strictly within one unit of it does. -/
theorem RoundsTo.of_near_odd (h : RoundsTo q n (M * 2 ^ e)) : RoundsTo q n x := by
  have hside := half_units_lt_of_near_odd hodd hq hx
  obtain ⟨hlow, hbelow, hnormal, hhalf, -⟩ := h
  obtain ⟨hleft, hright⟩ := abs_le.mp hhalf
  have htop := (hside (2 ^ 54)).2
  have hbinade := (hside (2 ^ 53)).1
  have hup := (hside (2 * n + 1)).2
  have hdown := (hside (2 * n - 1)).1
  push_cast at htop hbinade hup hdown
  have hstrict : |n * 2 ^ q - x| < 2 ^ q / 2 :=
    abs_lt.mpr ⟨by linarith [hup (by linarith)], by linarith [hdown (by linarith)]⟩
  exact ⟨hlow, by linarith [htop (by linarith)],
    fun hn => by linarith [hnormal hn, hbinade (by linarith [hnormal hn])],
    hstrict.le, fun htie => absurd htie hstrict.ne⟩

end

/-! ### The real root -/

/-- The integer root with its sticky bit, in half units: exact, or odd and within half a unit of the real
root. -/
theorem sticky_sqrt_near (n : Nat) {M : Nat}
    (hM : M = 2 * isqrt n + (decide (isqrt n * isqrt n ≠ n)).toNat) :
    2 * √(n : ℝ) = M ∨ (M % 2 = 1 ∧ |2 * √(n : ℝ) - M| < 1) := by
  obtain ⟨hlow, hhigh⟩ := isqrt_floor n
  generalize isqrt n = r at *
  by_cases hexact : r * r = n
  · left
    rw [hM, ← hexact, Nat.cast_mul, Real.sqrt_mul_self r.cast_nonneg]
    simp
  · right
    obtain rfl : M = 2 * r + 1 := by simpa [hexact] using hM
    have hlow' : (r : ℝ) < √n := by
      rw [Real.lt_sqrt r.cast_nonneg, sq]
      exact_mod_cast lt_of_le_of_ne hlow hexact
    have hhigh' : √(n : ℝ) < r + 1 := by
      rw [Real.sqrt_lt' (by positivity), sq]
      exact_mod_cast hhigh
    refine ⟨by omega, abs_lt.mpr ?_⟩
    push_cast
    constructor <;> linarith

/-- Scaling a radicand by an even power of two scales its root. -/
theorem sqrt_scaled (m k : Nat) {e E : Int} (hE : e - k = 2 * E) :
    √((m : ℝ) * 2 ^ e) = √((m * 2 ^ k : Nat) : ℝ) * 2 ^ E := by
  have hu : (0 : ℝ) < 2 ^ E := zpow_pos two_pos _
  have hpow : (2 : ℝ) ^ e = 2 ^ k * (2 ^ E * 2 ^ E) := by
    rw [← zpow_natCast, ← zpow_add₀ two_ne_zero, ← zpow_add₀ two_ne_zero]
    congr 1
    omega
  rw [hpow, ← mul_assoc, Real.sqrt_mul (by positivity), Real.sqrt_mul_self hu.le]
  push_cast
  rfl

/-- 110 bits more leave a root of at least 55 bits. -/
theorem le_isqrt_scaled {m k : Nat} (hm : m ≠ 0) (hk : 110 ≤ k) : 2 ^ 55 ≤ isqrt (m * 2 ^ k) := by
  rw [isqrt_eq_sqrt, Nat.le_sqrt, ← pow_add]
  calc 2 ^ (55 + 55) ≤ 2 ^ k := Nat.pow_le_pow_right two_pos hk
    _ ≤ m * 2 ^ k := Nat.le_mul_of_pos_left _ (Nat.pos_of_ne_zero hm)

/-- The last place of a rounding of 56 bits is at least two bits above theirs. -/
theorem RoundsTo.two_bits_below {q e : Int} {n M : Nat} (h : RoundsTo q n (M * 2 ^ e))
    (hM : 2 ^ 55 ≤ M) : e + 2 ≤ q := by
  by_contra hlt
  have hle : (2 : ℝ) ^ q ≤ 2 ^ (e + 1) := zpow_le_zpow_right₀ one_le_two (by omega)
  have hu : (0 : ℝ) < 2 ^ e := zpow_pos two_pos _
  have hM' : (2 : ℝ) ^ 55 ≤ M := by exact_mod_cast hM
  rw [zpow_add_one₀ two_ne_zero] at hle
  linarith [h.below, mul_le_mul_of_nonneg_right hM' hu.le]

theorem f64SqrtFin_roundsTo {m : Nat} (hm : m ≠ 0) (e : Int) :
    ∃ q n, RoundsTo q n √((m : ℝ) * 2 ^ e) ∧ f64SqrtFin m e = packUnits false q n := by
  let k : Nat := if e % 2 = 0 then 110 else 111
  have hk : 110 ≤ k ∧ e - k = 2 * ((e - k) / 2) := by
    simp only [k]
    split <;> omega
  let r := isqrt (m * 2 ^ k)
  let M := 2 * r + (decide (r * r ≠ m * 2 ^ k)).toNat
  let E := (e - k) / 2 - 1
  have hM : 2 ^ 55 ≤ M := (le_isqrt_scaled hm hk.1).trans (by omega)
  have hroot : √((m : ℝ) * 2 ^ e) = 2 * √((m * 2 ^ k : Nat) : ℝ) * 2 ^ E := by
    rw [sqrt_scaled m k hk.2, show (e - k) / 2 = E + 1 by omega, zpow_add_one₀ two_ne_zero]
    ring
  obtain ⟨q, n, hr, hpack⟩ := f64Round_eq_packUnits M E
  refine ⟨q, n, ?_, hpack false⟩
  rw [hroot]
  obtain hexact | ⟨hodd, hnear⟩ := sticky_sqrt_near (m * 2 ^ k) (M := M) rfl
  · rwa [hexact]
  · have hu : (0 : ℝ) < 2 ^ E := zpow_pos two_pos _
    refine hr.of_near_odd hodd (hr.two_bits_below hM) ?_
    rw [← sub_mul, abs_mul, abs_of_pos hu]
    exact mul_lt_of_lt_one_left hu hnear

theorem f64Sqrt_roundsTo {a : Word} {m : Nat} {e : Int} (ha : f64Value a = .fin false m e) :
    ∃ q n, RoundsTo q n √((m : ℝ) * 2 ^ e) ∧ f64Sqrt a = packUnits false q n := by
  by_cases hm : m = 0
  · subst hm
    exact ⟨-1074, 0, by simpa using zero_roundsTo, by simp [f64Sqrt, ha, packUnits, f64Zero]⟩
  · obtain ⟨q, n, hr, hpack⟩ := f64SqrtFin_roundsTo hm e
    exact ⟨q, n, hr, by simpa [f64Sqrt, ha, hm] using hpack⟩

/-- The root of a finite value is far from overflow. -/
theorem sqrt_lt_threshold {a : Word} {s : Bool} {m : Nat} {e : Int} (ha : f64Value a = .fin s m e) :
    √((m : ℝ) * 2 ^ e) < (2 ^ 54 - 1) * 2 ^ (970 : Int) := by
  obtain ⟨hm, -, he⟩ := fin_bounds ha
  have hm' : (m : ℝ) < 2 ^ 53 := by exact_mod_cast hm
  have hu : (1 : ℝ) ≤ 2 ^ (970 : Int) := one_le_zpow₀ one_le_two (by omega)
  have hunit : (2 : ℝ) ^ e ≤ 2 ^ (1 + 970 : Int) := zpow_le_zpow_right₀ one_le_two (by omega)
  rw [zpow_one_add₀ two_ne_zero] at hunit
  have hmul := mul_le_mul hm'.le hunit (by positivity) (by positivity)
  generalize (2 : ℝ) ^ (970 : Int) = u at hu hmul ⊢
  rw [Real.sqrt_lt' (by linarith)]
  nlinarith

/-- Settles O37: the real root is what `RoundsTo` rounds, and it never overflows. -/
theorem squareRootIsNearest : Obligations.SquareRootIsNearest := by
  refine ⟨isqrt_floor, fun a m e ha => ?_⟩
  obtain ⟨q, n, hr, hpack⟩ := f64Sqrt_roundsTo ha
  obtain ⟨m1, e1, hval, heq⟩ := f64Value_packUnits hr false (sqrt_lt_threshold ha)
  refine ⟨m1, e1, by rw [hpack, hval], fun w s2 m2 e2 hw => ?_⟩
  rw [heq, cast_finValue_false, cast_finValue_false]
  exact hr.nearest hw

end Sys2Proof.Proofs.Binary64

/-!
What a step can do to the block: the principle by which an invariant is shown of every step, and which
steps keep OVERRUN and the outcome of initialisation (70_reset_and_hazards.md R305).
-/

namespace Sys2Proof.Proofs.Steps

open Sys2Proof Sys2Proof.Machine

/-! ### The host's side -/

/-- What neither a command in flight nor initialisation reads: the operand registers, OVERRUN, the host
port and the agenda. -/
def aside (s : State) (x0 x1 x2 : Word) (b : Bool) (p : HostPort) (l : List Event) : State :=
  { s with op0 := x0, op1 := x1, op2 := x2, overrun := b, hostPort := p, agenda := l }

theorem aside_hostPort (s : State) (p : HostPort) :
    { s with hostPort := p } = aside s s.op0 s.op1 s.op2 s.overrun p s.agenda := rfl

/-- An access that is performed accepts a command, or changes nothing a command reads. -/
theorem serve_cases (a : Access) (s : State) :
    (∃ x0 x1 x2 b p, s.serve a = aside s x0 x1 x2 b p s.agenda) ∨
    ∃ w p, s.inflight = none ∧ s.serve a = { s.accept w with hostPort := p } := by
  rcases perform_cases a s with h | ⟨t, h, -, -, hw⟩
  · exact .inl ⟨_, _, _, _, _, by rw [State.serve, h, aside_hostPort]⟩
  · simp only [State.serve, h]
    rcases writeReg_cases hw with ⟨-, rfl⟩ | ⟨-, rfl⟩ | ⟨-, rfl⟩ | ⟨-, rfl⟩ | ⟨-, rfl⟩
    · unfold State.writeCmd
      split
      next => exact .inl ⟨_, _, _, _, _, rfl⟩
      next hb => exact .inr ⟨_, _, by simpa [State.isBusy] using hb, rfl⟩
    · unfold State.writeStatus
      split <;> exact .inl ⟨_, _, _, _, _, rfl⟩
    all_goals exact .inl ⟨_, _, _, _, _, rfl⟩

/-- The host's request is answered, or nothing happens. -/
theorem answerHost_cases (s : State) :
    s.answerHost = s ∨ ∃ a, s.hostPort = .pending a ∧ s.answerHost = s.serve a := by
  unfold State.answerHost
  cases h : s.hostPort <;> simp

/-- A request is raised, or nothing happens. -/
theorem raiseHost_cases (a : Access) (s : State) :
    s.raiseHost a = s ∨ s.raiseHost a = { s with hostPort := .pending a } := by
  unfold State.raiseHost
  cases s.hostPort <;> simp

/-! ### Invariants -/

/-- What every step keeps: it is kept by whatever can happen to the block, one premise for each. -/
theorem step_keeps {P : State → Prop}
    (host : ∀ s x0 x1 x2 b p l, P s → P (aside s x0 x1 x2 b p l))
    (reset : ∀ (s : State) strap, P (s.resetTo strap))
    (init : ∀ s, P s → P s.initDone)
    (accept : ∀ s w, s.inflight = none → P s → P (s.accept w))
    (request : ∀ s f q k, s.inflight = some f → f.request = none →
      (f.gate (wordProg s f)).resume f.responses = .ask q k → P s →
      P { s with inflight := some { f with request := some q }, collabTrace := s.collabTrace ++ [q] })
    (response : ∀ s f q, s.inflight = some f → f.request = some q → P s →
      P { s with
        inflight := some { f with request := none, responses := f.responses ++ [s.collabAnswer q] } })
    (finish : ∀ s f, s.inflight = some f → P s → P (s.finish f (f.gate (wordProg s f))))
    {s t : State} (hs : P s) (hstep : step s = .next t) : P t := by
  have port : ∀ s p, P s → P { s with hostPort := p } := fun s p h => host s _ _ _ _ p _ h
  have serve : ∀ s a, P s → P (s.serve a) := by
    intro s a h
    obtain ⟨x0, x1, x2, b, p, e⟩ | ⟨w, p, hidle, e⟩ := serve_cases a s
    · exact e ▸ host s x0 x1 x2 b p _ h
    · exact e ▸ port _ p (accept s w hidle h)
  obtain ⟨t', ht', l, hmove⟩ := step_move s
  obtain rfl : t' = t := by simpa [ht'] using hstep
  have hl : P { s with agenda := l } := host s _ _ _ _ _ l hs
  generalize { s with agenda := l } = s at hl hmove
  cases hmove with
  | stay => exact hl
  | finish f hf => exact finish s f hf hl
  | init => exact init s hl
  | reset strap => exact reset s strap
  | raiseHost a =>
    obtain e | e := raiseHost_cases a s
    · rwa [e]
    · exact e ▸ port s _ hl
  | answerHost =>
    obtain e | ⟨a, -, e⟩ := answerHost_cases s
    · rwa [e]
    · exact e ▸ serve s a hl
  | issueCollab =>
    obtain e | ⟨f, q, k, hf, hr, hp, e⟩ := raiseCollab_cases (wordProg s) s
    · rwa [State.issueCollab, e]
    · rw [State.issueCollab, e]
      exact request s f q k hf hr hp hl
  | takeRsp =>
    obtain e | ⟨f, q, hf, hr, e⟩ := takeRsp_cases s
    · rwa [e]
    · exact e ▸ response s f q hf hr hl
  | serve => exact serve s statusRead hl

/-! ### The lookup tables -/

/-- The outcome of initialisation, both tables and the sampled strap are kept. -/
def KeepsInit (s t : State) : Prop :=
  t.initState = s.initState ∧ t.posLut = s.posLut ∧ t.ijLut = s.ijLut ∧ t.projMode = s.projMode

theorem finish_keepsInit (s : State) (f : InFlight) (p : Prog) : KeepsInit s (s.finish f p) :=
  have h := finish_keepsRest s f p
  ⟨h.initState, h.posLut, h.ijLut, h.projMode⟩

theorem tablesSound_of_keepsInit {s t : State} (h : TablesSound s) (hk : KeepsInit s t) :
    TablesSound t := by
  obtain ⟨hi, hp, hj, hm⟩ := hk
  constructor
  · exact hp ▸ h.posLength
  · exact hj ▸ h.ijLength
  · rw [hi, hp]
    exact h.posBuilt
  · rw [hi, hj]
    exact h.ijBuilt
  · rw [hi, hm]
    exact h.strap

theorem tablesSound_resetTo (s : State) (strap : BitVec 2) : TablesSound (s.resetTo strap) where
  posLength := unbuiltLut_wf
  ijLength := unbuiltLut_wf
  posBuilt h := by simp at h
  ijBuilt h := by simp at h
  strap h := by simp at h

theorem tablesSound_initDone {s : State} (h : TablesSound s) : TablesSound s.initDone := by
  by_cases hb : s.initState = .building
  · by_cases hm : s.projMode = 0
    · rw [initDone_building s hb hm]
      have hp := buildTables_posLut s
      have hi := buildTables_ijLut s
      exact ⟨hp.symm ▸ builtPosLut_wf, hi.symm ▸ builtIjLut_wf, fun _ => hp, fun _ => hi,
        fun _ => hm⟩
    · rw [initDone_failing s hb hm]
      exact ⟨h.posLength, h.ijLength, by simp, by simp, by simp⟩
  · rwa [initDone_settled s hb]

/-- Settles O58: only initialisation and a reset touch what the invariant speaks of. -/
theorem stepKeepsTablesSound : Obligations.StepKeepsTablesSound := by
  intro s t h
  refine step_keeps (P := TablesSound) ?host tablesSound_resetTo
    (fun _ => tablesSound_initDone) ?accept ?request ?response ?finish h
  case finish => exact fun s f _ h => tablesSound_of_keepsInit h (finish_keepsInit s f _)
  all_goals
    intros
    rename_i h
    exact tablesSound_of_keepsInit h ⟨rfl, rfl, rfl, rfl⟩

/-! ### The command in flight -/

theorem exchanged_fresh (p : Prog) (ans : CollabReq → CollabRsp) {f : InFlight} (h : Fresh f) :
    Exchanged p ans f [] := by
  obtain ⟨hreq, hrsp⟩ := h
  exact ⟨0, Nat.zero_le _, by simp [hrsp], by simp [hreq]⟩

/-- A program that asks next puts its next request on the port. -/
theorem exchanged_request {p : Prog} {ans : CollabReq → CollabRsp} {f : InFlight}
    {trace : List CollabReq} {q : CollabReq} {k : CollabRsp → Prog} (h : Exchanged p ans f trace)
    (hr : f.request = none) (hp : p.resume f.responses = .ask q k) :
    Exchanged p ans { f with request := some q } (trace ++ [q]) := by
  obtain ⟨n, hn, hrsp, htrace⟩ := h
  simp only [hr] at htrace
  have hdrop : (p.requests ans).drop n = q :: (k (ans q)).requests ans := by
    rw [← Prog.requests_resume, ← hrsp, hp, Prog.requests_ask]
  have hq : (p.requests ans)[n]? = some q := by
    rw [← List.head?_drop, hdrop, List.head?_cons]
  exact ⟨n, hn, hrsp, hq, by simp [List.take_add_one, htrace, hq]⟩

/-- The answer to the outstanding request is taken. -/
theorem exchanged_response {p : Prog} {ans : CollabReq → CollabRsp} {f : InFlight}
    {trace : List CollabReq} {q : CollabReq} (h : Exchanged p ans f trace)
    (hr : f.request = some q) :
    Exchanged p ans { f with request := none, responses := f.responses ++ [ans q] } trace := by
  obtain ⟨n, hn, hrsp, htrace⟩ := h
  simp only [hr] at htrace
  obtain ⟨hq, htrace⟩ := htrace
  have hlt : n < (p.requests ans).length := (List.getElem?_eq_some_iff.mp hq).1
  exact ⟨n + 1, hlt, by simp [List.take_add_one, hrsp, hq], htrace⟩

theorem commandSound_idle {s : State} (hl : s.lastOpcode = opcodeField s.cmd)
    (hi : s.inflight = none) : CommandSound s :=
  ⟨hl, by simp [hi]⟩

theorem commandSound_aside {s : State} (h : CommandSound s) (x0 x1 x2 : Word) (b : Bool)
    (p : HostPort) (l : List Event) : CommandSound (aside s x0 x1 x2 b p l) := by
  refine ⟨h.lastOpcode, fun f hf => ?_⟩
  have hs := h.inflight f hf
  refine ⟨hs.word, hs.ready, ?_⟩
  rw [wordProg_congr (s := s) (t := aside s x0 x1 x2 b p l) rfl rfl]
  exact hs.exchanged

theorem commandSound_accept {s : State} (w : Word) : CommandSound (s.accept w) := by
  refine ⟨rfl, fun f hf => ?_⟩
  obtain rfl := Option.some.inj hf
  exact ⟨rfl, fun h => by simpa [State.isReady] using h, exchanged_fresh _ _ ⟨rfl, rfl⟩⟩

/-- A command accepted before READY is in flight while the tables are built: it does not read them. -/
theorem commandSound_initDone {s : State} (h : CommandSound s) : CommandSound s.initDone := by
  by_cases hb : s.initState = .building
  · have hgate : ∀ f, s.inflight = some f → f.ready = false := by
      intro f hf
      have hr := (h.inflight f hf).ready
      simpa [hb] using hr
    have flight : ∀ (t : State) (f : InFlight), s.inflight = some f → t.cmd = s.cmd →
        t.collabAnswer = s.collabAnswer → t.collabTrace = s.collabTrace → FlightSound t f := by
      intro t f hf hcmd hans htrace
      have hs := h.inflight f hf
      refine ⟨hcmd ▸ hs.word, by simp [hgate f hf], ?_⟩
      rw [hans, htrace, gate_notReady _ _ (hgate f hf), ← gate_notReady _ (wordProg s f) (hgate f hf)]
      exact hs.exchanged
    by_cases hm : s.projMode = 0
    · rw [initDone_building s hb hm]
      exact ⟨h.lastOpcode, fun f hf => flight _ f hf rfl rfl rfl⟩
    · rw [initDone_failing s hb hm]
      exact ⟨h.lastOpcode, fun f hf => flight _ f hf rfl rfl rfl⟩
  · rwa [initDone_settled s hb]

theorem commandSound_request {s : State} {f : InFlight} {q : CollabReq} {k : CollabRsp → Prog}
    (hf : s.inflight = some f) (hr : f.request = none)
    (hp : (f.gate (wordProg s f)).resume f.responses = .ask q k) (h : CommandSound s) :
    CommandSound { s with
      inflight := some { f with request := some q }, collabTrace := s.collabTrace ++ [q] } := by
  refine ⟨h.lastOpcode, fun f' hf' => ?_⟩
  obtain rfl := Option.some.inj hf'
  have hs := h.inflight f hf
  exact ⟨hs.word, hs.ready, exchanged_request hs.exchanged hr hp⟩

theorem commandSound_response {s : State} {f : InFlight} {q : CollabReq}
    (hf : s.inflight = some f) (hr : f.request = some q) (h : CommandSound s) :
    CommandSound { s with
      inflight := some
        { f with request := none, responses := f.responses ++ [s.collabAnswer q] } } := by
  refine ⟨h.lastOpcode, fun f' hf' => ?_⟩
  obtain rfl := Option.some.inj hf'
  have hs := h.inflight f hf
  exact ⟨hs.word, hs.ready, exchanged_response hs.exchanged hr⟩

theorem commandSound_finish {s : State} (h : CommandSound s) (f : InFlight) (p : Prog) :
    CommandSound (s.finish f p) := by
  have hk := finish_keepsRest s f p
  exact commandSound_idle (by rw [hk.lastOpcode, hk.cmd, h.lastOpcode]) hk.inflight

/-- Settles O59: a command in flight is exchanged further, completed or dropped, and initialisation does
not reach it. -/
theorem stepKeepsCommandSound : Obligations.StepKeepsCommandSound := fun _ _ h =>
  step_keeps (P := CommandSound) (fun _ x0 x1 x2 b p l h => commandSound_aside h x0 x1 x2 b p l)
    (fun _ _ => commandSound_idle rfl rfl) (fun _ => commandSound_initDone)
    (fun _ w _ _ => commandSound_accept w) (fun _ _ _ _ => commandSound_request)
    (fun _ _ _ => commandSound_response) (fun _ f _ h => commandSound_finish h f _) h

end Sys2Proof.Proofs.Steps

/-!
The outcomes a command's program can end in, and the outcome fields they leave (60_exceptions.md R261, R262,
R265, R269).
-/

namespace Sys2Proof.Proofs.Outcomes

open Sys2Proof Sys2Proof.Machine Sys2Proof.Proofs.Steps

/-! ### How a program can end -/

/-- Every result the program can come to, whatever is answered. -/
inductive AllEnds (P : CmdResult → Prop) : Prog → Prop
  | done {r : CmdResult} (h : P r) : AllEnds P (.done r)
  | ask {q : CollabReq} {k : CollabRsp → Prog} (h : ∀ r, AllEnds P (k r)) : AllEnds P (.ask q k)

theorem allEnds_resume {P : CmdResult → Prop} {p : Prog} (h : AllEnds P p) (rs : List CollabRsp) :
    AllEnds P (p.resume rs) := by
  induction rs generalizing p with
  | nil => simpa using h
  | cons r rs ih =>
    cases h with
    | done h => exact .done h
    | ask h => exact ih (h r)

theorem allEnds_run {P : CmdResult → Prop} {p : Prog} (h : AllEnds P p)
    (ans : CollabReq → CollabRsp) : P (p.run ans) := by
  induction h with
  | done h => exact h
  | ask _ ih => exact ih _

/-- An error a command can raise: initialisation's code is not one, and an operand is named only with the
codes that fault an operand (60_exceptions.md R262). -/
def Raisable (e : ErrCode) (a : ErrOperand) : Prop :=
  e ≠ .unsupportedProjection ∧
    (a ≠ .cmdw → e = .invalidFace ∨ e = .malformedCellId ∨ e = .invalidOperand)

/-- A command ends with results or with an error it can raise. -/
def Fits : CmdResult → Prop
  | .one _ | .four _ _ _ _ => True
  | .error e a => Raisable e a

section Checks

variable {n : ErrOperand} {x : Word}

theorem raise_fits {e : ErrCode} {a : ErrOperand} (h : Raisable e a) : AllEnds Fits (raise e a) := .done h

theorem return1_fits (v : Word) : AllEnds Fits (return1 v) := .done trivial

theorem four_fits (r0 r1 r2 r3 : Word) : AllEnds Fits (.done (.four r0 r1 r2 r3)) :=
  .done trivial

theorem checkId_fits {k : Nat → Prog} (h : ∀ l, AllEnds Fits (k l)) :
    AllEnds Fits (checkId x n k) := by
  unfold checkId
  split
  · exact raise_fits ⟨by simp, by simp⟩
  · split
    · exact raise_fits ⟨by simp, by simp⟩
    · exact h _

theorem checkFace_fits {k : Nat → Prog} (h : ∀ face, AllEnds Fits (k face)) :
    AllEnds Fits (checkFace x n k) := by
  unfold checkFace
  split
  · exact raise_fits ⟨by simp, by simp⟩
  · exact h _

theorem checkBelow_fits {bound : Nat} {k : Nat → Prog} (h : ∀ v, AllEnds Fits (k v)) :
    AllEnds Fits (checkBelow bound x n k) := by
  unfold checkBelow
  split
  · exact raise_fits ⟨by simp, by simp⟩
  · exact h _

theorem checkF64_fits {k : Word → Prog} (h : ∀ v, AllEnds Fits (k v)) :
    AllEnds Fits (checkF64 x n k) := by
  unfold checkF64
  split
  · exact raise_fits ⟨by simp, by simp⟩
  · exact h _

theorem askFaceUV_fits {p : Config.Point} {k : Nat → Word → Word → Prog}
    (h : ∀ face u v, AllEnds Fits (k face u v)) : AllEnds Fits (askFaceUV p k) := by
  refine .ask fun r => ?_
  split
  · exact raise_fits ⟨by simp, by simp⟩
  · exact h _ _ _

theorem fromFaceIjWrap_fits {posLut : Lut} {face : Nat} {i j : Int} {k : Word → Prog}
    (h : ∀ leaf, AllEnds Fits (k leaf)) : AllEnds Fits (fromFaceIjWrap posLut face i j k) :=
  .ask fun _ => askFaceUV_fits fun _ _ _ => h _

theorem fromFaceIjSame_fits {posLut : Lut} {face : Nat} {i j : Int} {same : Bool} {k : Word → Prog}
    (h : ∀ leaf, AllEnds Fits (k leaf)) : AllEnds Fits (fromFaceIjSame posLut face i j same k) := by
  unfold fromFaceIjSame
  split
  · exact h _
  · exact fromFaceIjWrap_fits h

theorem stToIjProg_fits : AllEnds Fits (stToIjProg x) := by
  rw [stToIjProg]
  exact checkF64_fits fun _ => return1_fits _

theorem fromLatLngProg_fits (posLut : Lut) (y : Word) : AllEnds Fits (fromLatLngProg posLut x y) := by
  refine checkF64_fits fun _ => checkF64_fits fun _ => .ask fun r => ?_
  exact askFaceUV_fits fun _ _ _ => return1_fits _

theorem parentProg_fits (l : Nat) : AllEnds Fits (parentProg l x) := by
  refine checkId_fits fun lv => ?_
  split
  · exact raise_fits ⟨by simp, by simp⟩
  · exact return1_fits _

theorem edgeNeighborsProg_fits (posLut ijLut : Lut) :
    AllEnds Fits (edgeNeighborsProg posLut ijLut x) := by
  refine checkId_fits fun l => ?_
  unfold edgeNeighbors
  exact fromFaceIjSame_fits fun _ => fromFaceIjSame_fits fun _ => fromFaceIjSame_fits fun _ =>
    fromFaceIjSame_fits fun _ => four_fits _ _ _ _

end Checks

theorem commandProg_fits (i : Instr) (s : State) (f : InFlight) : AllEnds Fits (commandProg i s f) := by
  cases i with
  | lutRead table => exact checkBelow_fits fun _ => return1_fits _
  | uvToSt => exact checkF64_fits fun _ => return1_fits _
  | stToIj => exact stToIjProg_fits
  | fromFaceIj =>
    exact checkFace_fits fun _ => checkBelow_fits fun _ => checkBelow_fits fun _ => return1_fits _
  | fromFaceUv =>
    exact checkFace_fits fun _ => checkF64_fits fun _ => checkF64_fits fun _ => return1_fits _
  | fromLatLng => exact fromLatLngProg_fits _ _
  | toFaceIj => exact checkId_fits fun _ => four_fits _ _ _ _
  | isValid => exact return1_fits _
  | face | level | advance | advanceWrap | next | prev => exact checkId_fits fun _ => return1_fits _
  | parent l => exact parentProg_fits l
  | edgeNeighbors => exact edgeNeighborsProg_fits _ _
  | fromFaceIjWrap => exact checkFace_fits fun _ => fromFaceIjWrap_fits return1_fits

theorem wordProg_fits (s : State) (f : InFlight) : AllEnds Fits (wordProg s f) := by
  unfold wordProg
  split
  · exact commandProg_fits _ s f
  · exact raise_fits ⟨by simp, by simp⟩

/-! ### The outcome fields -/

theorem outcomeSound_applyResult {s : State} {r : CmdResult} (h : OutcomeSound s) (hr : Fits r)
    (hearly : s.initState ≠ .ready → r = .error .notReady .cmdw) :
    OutcomeSound (s.applyResult r) := by
  by_cases hi : s.initState = .ready
  · cases r with
    | one r0 => constructor <;> simp [hi]
    | four r0 r1 r2 r3 => constructor <;> simp [hi]
    | error e a =>
      obtain ⟨hproj, hoperand⟩ := hr
      constructor <;> simp [hi, hproj]
      exact hoperand
  · obtain ⟨h0, h1, h2, h3, -⟩ := h.untouched hi
    rw [hearly hi]
    constructor <;> simp [h0, h1, h2, h3]

/-- A command accepted before READY ends in NOT_READY; another one ends in READY. -/
theorem outcomeSound_finish {s : State} {f : InFlight} (h : OutcomeSound s)
    (hready : f.ready = true → s.initState = .ready) :
    OutcomeSound (s.finish f (f.gate (wordProg s f))) := by
  refine outcomeSound_applyResult
    ⟨h.operand, h.count, h.counted, h.building, h.failed, h.ready, h.untouched⟩ ?_ ?_
  · refine allEnds_run (allEnds_resume ?_ _) _
    unfold InFlight.gate
    split
    · exact wordProg_fits s f
    · exact raise_fits ⟨by simp, by simp⟩
  · intro hi
    have hn : f.ready = false := by simpa using mt hready hi
    rw [gate_notReady _ _ hn, raise_resume, raise_run]

theorem outcomeSound_initDone {s : State} (h : OutcomeSound s) : OutcomeSound s.initDone := by
  by_cases hb : s.initState = .building
  · have hcode := h.building hb
    have hzero := h.untouched (by simp [hb])
    by_cases hm : s.projMode = 0
    · rw [initDone_building s hb hm]
      refine ⟨h.operand, h.count, h.counted, by simp, by simp, fun _ => ?_, by simp⟩
      rcases hcode with hc | hc <;> simp [hc]
    · rw [initDone_failing s hb hm]
      exact ⟨by simp, h.count, fun _ => hzero.2.2.2.2, by simp, by simp, by simp, fun _ => hzero⟩
  · rwa [initDone_settled s hb]

theorem outcomeSound_resetTo (s : State) (strap : BitVec 2) : OutcomeSound (s.resetTo strap) := by
  constructor <;> simp

/-- Settles O60: whether the command in flight was accepted while READY is `CommandSound`'s to say, so both
invariants are kept together. -/
theorem stepKeepsOutcomeSound : Obligations.StepKeepsOutcomeSound := by
  intro s t hc ho hstep
  refine (step_keeps (P := fun s => CommandSound s ∧ OutcomeSound s)
    (fun s x0 x1 x2 b p l h => ⟨commandSound_aside h.1 x0 x1 x2 b p l, ?host⟩)
    (fun s strap => ⟨commandSound_idle rfl rfl, outcomeSound_resetTo s strap⟩)
    (fun s h => ⟨commandSound_initDone h.1, outcomeSound_initDone h.2⟩)
    (fun s w _ h => ⟨commandSound_accept w, ?accept⟩)
    (fun s f q k hf hr hp h => ⟨commandSound_request hf hr hp h.1, ?request⟩)
    (fun s f q hf hr h => ⟨commandSound_response hf hr h.1, ?response⟩)
    (fun s f hf h => ⟨commandSound_finish h.1 f _, outcomeSound_finish h.2 (h.1.inflight f hf).ready⟩)
    ⟨hc, ho⟩ hstep).2
  all_goals
    have ho := h.2
    exact ⟨ho.operand, ho.count, ho.counted, ho.building, ho.failed, ho.ready, ho.untouched⟩

end Sys2Proof.Proofs.Outcomes

/-!
What a step that is no reset keeps: the outcome of initialisation (10_state.md R39, R40, R46), and OVERRUN
but for a performed write of `STATUS` (R37).
-/

namespace Sys2Proof.Proofs.Keeps

open Sys2Proof Sys2Proof.Machine Sys2Proof.Proofs.Steps

/-! ### The steps by what they answer -/

/-- A move that neither resets the block nor performs an access of the host. -/
inductive Quiet (s : State) : State → Prop
  | port (p : HostPort) : Quiet s { s with hostPort := p }
  | exchange (f : Option InFlight) (trace : List CollabReq) :
      Quiet s { s with inflight := f, collabTrace := trace }
  | finish (f : InFlight) (p : Prog) : Quiet s (s.finish f p)
  | init : Quiet s s.initDone

/-- The block answers the host with nothing scheduled, on the acknowledging event, or behind a poll. -/
def MayAnswer (s : State) : Prop :=
  s.agenda = [] ∨ ∃ e ∈ [Event.hostAck, .pollBusy, .pollReady], ∃ rest, s.agenda = e :: rest

theorem quiet_refl (s : State) : Quiet s s := .port s.hostPort

theorem raiseHost_quiet (a : Access) (s : State) : Quiet s (s.raiseHost a) := by
  rcases raiseHost_cases a s with h | h
  · rw [h]
    exact quiet_refl s
  · rw [h]
    exact .port _

theorem issueCollab_quiet (s : State) : Quiet s s.issueCollab := by
  rcases raiseCollab_cases (wordProg s) s with h | ⟨f, q, k, -, -, -, h⟩
  · rw [State.issueCollab, h]
    exact quiet_refl s
  · rw [State.issueCollab, h]
    exact .exchange _ _

theorem takeRsp_quiet (s : State) : Quiet s s.takeRsp := by
  rcases takeRsp_cases s with h | ⟨f, q, -, -, h⟩
  · rw [h]
    exact quiet_refl s
  · rw [h]
    exact .exchange _ s.collabTrace

theorem completeInFlight_quiet (s : State) : ∃ t, completeInFlight s = .next t ∧ Quiet s t := by
  rcases completeInFlight_cases s with ⟨-, h⟩ | ⟨f, -, h⟩
  · exact ⟨s, h, quiet_refl s⟩
  · exact ⟨_, h, .finish f _⟩

theorem ownMove_cases (s : State) :
    ∃ t, ownMove s = .next t ∧ (Quiet s t ∨ t = s.answerHost) := by
  unfold ownMove
  split
  · exact ⟨_, rfl, .inr rfl⟩
  · split
    · exact ⟨_, rfl, .inl (issueCollab_quiet s)⟩
    · split
      · obtain ⟨t, h, hq⟩ := completeInFlight_quiet s
        exact ⟨t, h, .inl hq⟩
      · exact ⟨_, rfl, .inl .init⟩

theorem pollStatus_cases (b : Bool) (rest : List Event) (s : State) :
    ∃ t, pollStatus b rest s = .next t ∧
      ∃ l, Quiet { s with agenda := l } t ∨ t = { s with agenda := l }.answerHost := by
  unfold pollStatus
  split
  · obtain ⟨t, h, ht⟩ := ownMove_cases s
    exact ⟨t, h, s.agenda, ht⟩
  · exact ⟨_, rfl, rest, .inl (.port _)⟩

/-- A step takes a reset event, or is quiet, or answers the host where that may happen. -/
theorem step_cases (s : State) :
    ∃ t, step s = .next t ∧
      ((∃ strap rest, s.agenda = .reset strap :: rest) ∨
        ∃ l, Quiet { s with agenda := l } t ∨
          MayAnswer s ∧ t = { s with agenda := l }.answerHost) := by
  unfold step MayAnswer
  cases s.agenda with
  | nil =>
    obtain ⟨t, h, ht⟩ := ownMove_cases s
    exact ⟨t, h, .inr ⟨s.agenda, by simpa using ht⟩⟩
  | cons e rest =>
    cases e with
    | reset strap => exact ⟨_, rfl, .inl ⟨strap, rest, rfl⟩⟩
    | initDone => exact ⟨_, rfl, .inr ⟨rest, .inl .init⟩⟩
    | hostReq a => exact ⟨_, rfl, .inr ⟨rest, .inl (raiseHost_quiet a _)⟩⟩
    | hostAck => exact ⟨_, rfl, .inr ⟨rest, .inr ⟨by simp, rfl⟩⟩⟩
    | collabReq => exact ⟨_, rfl, .inr ⟨rest, .inl (issueCollab_quiet _)⟩⟩
    | collabRsp => exact ⟨_, rfl, .inr ⟨rest, .inl (takeRsp_quiet _)⟩⟩
    | complete =>
      obtain ⟨t, h, hq⟩ := completeInFlight_quiet { s with agenda := rest }
      exact ⟨t, h, .inr ⟨rest, .inl hq⟩⟩
    | pollBusy | pollReady =>
      obtain ⟨t, h, l, ht⟩ := pollStatus_cases _ rest s
      exact ⟨t, h, .inr ⟨l, by simpa using ht⟩⟩

/-! ### Initialisation -/

theorem quiet_keepsInit {s t : State} (h : Quiet s t) (hs : s.initState ≠ .building) :
    KeepsInit s t := by
  cases h with
  | port | exchange => exact ⟨rfl, rfl, rfl, rfl⟩
  | finish f p => exact finish_keepsInit s f p
  | init =>
    rw [initDone_settled s hs]
    exact ⟨rfl, rfl, rfl, rfl⟩

theorem answerHost_keepsInit (s : State) : KeepsInit s s.answerHost := by
  obtain h | ⟨a, -, h⟩ := answerHost_cases s
  · rw [h]
    exact ⟨rfl, rfl, rfl, rfl⟩
  · obtain ⟨x0, x1, x2, b, p, h'⟩ | ⟨w, p, -, h'⟩ := serve_cases a s <;> rw [h, h'] <;>
      exact ⟨rfl, rfl, rfl, rfl⟩

/-- Settles O12: a quiet step changes nothing of initialisation once it is decided, and an access never
does. -/
theorem initialisationLastsUntilReset : Obligations.InitialisationLastsUntilReset := by
  intro s hs hno
  obtain ⟨t, hstep, ⟨strap, rest, h⟩ | ⟨l, hq | ⟨-, rfl⟩⟩⟩ := step_cases s
  · exact absurd h (hno strap rest)
  · exact ⟨t, hstep, quiet_keepsInit (s := { s with agenda := l }) hq hs⟩
  · exact ⟨_, hstep, answerHost_keepsInit { s with agenda := l }⟩

/-! ### OVERRUN -/

theorem initDone_overrun (s : State) : s.initDone.overrun = s.overrun := by
  unfold State.initDone
  split
  · split <;> rfl
  all_goals rfl

theorem quiet_overrun {s t : State} (h : Quiet s t) : t.overrun = s.overrun := by
  cases h with
  | port | exchange => rfl
  | finish f p => exact (finish_keepsRest s f p).overrun
  | init => exact initDone_overrun s

theorem writeCmd_overrun {s : State} (v : Word) (h : s.overrun = true) :
    (s.writeCmd v).overrun = true := by
  unfold State.writeCmd
  split
  · rfl
  · exact h

theorem writeStatus_overrun (s : State) (v : Word) :
    (s.writeStatus v).overrun = (s.overrun && !v.getLsbD 4) := by
  unfold State.writeStatus
  split <;> simp_all

/-- Of the accesses, only a performed write of `STATUS` with bit 4 clears OVERRUN. -/
theorem serve_clears_overrun {a : Access} {s : State} (hs : s.overrun = true)
    (hc : (s.serve a).overrun = false) :
    a.write = true ∧ a.size = 3 ∧ a.addr = 0x08 ∧ a.wdata.getLsbD 4 = true := by
  rcases perform_cases a s with h | ⟨t, h, hwrite, hsize, hw⟩
  · simp [State.serve, h, hs] at hc
  · simp only [State.serve, h] at hc
    rcases writeReg_cases hw with ⟨-, rfl⟩ | ⟨haddr, rfl⟩ | ⟨-, rfl⟩ | ⟨-, rfl⟩ | ⟨-, rfl⟩
    · simp [writeCmd_overrun _ hs] at hc
    · rw [writeStatus_overrun, hs] at hc
      exact ⟨hwrite, hsize, BitVec.eq_of_toNat_eq haddr, by simpa using hc⟩
    all_goals simp [hs] at hc

/-- Settles O18: a quiet step keeps OVERRUN. -/
theorem overrunIsSticky : Obligations.OverrunIsSticky := by
  intro s t hstep hs ht
  obtain ⟨t', hstep', hcases⟩ := step_cases s
  obtain rfl : t' = t := by simpa [hstep'] using hstep
  obtain hreset | ⟨l, hq | ⟨hmay, rfl⟩⟩ := hcases
  · exact .inl hreset
  · have hkeep := quiet_overrun hq
    simp [ht, hs] at hkeep
  · obtain h | ⟨a, ha, h⟩ := answerHost_cases { s with agenda := l }
    · rw [h] at ht
      simp [hs] at ht
    · exact .inr ⟨hmay, a, ha, serve_clears_overrun (s := { s with agenda := l }) hs (h ▸ ht)⟩

end Sys2Proof.Proofs.Keeps

/-!
The host port and the collaborator port, event by event (10_state.md R35 to R37, R43; 20_memory.md R62 to R77).
-/

namespace Sys2Proof.Proofs.Ports

open Sys2Proof Sys2Proof.Machine Sys2Proof.Proofs.Steps Sys2Proof.Proofs.Keeps

variable {s t : State} {rest : List Event} {a : Access}

/-! ### Accesses -/

theorem step_hostAck (hs : s.agenda = .hostAck :: rest) (hp : s.hostPort = .pending a) :
    step s = .next ({ s with agenda := rest }.serve a) := by
  simp [step, hs, takeEvent, State.answerHost, hp]

section Doubleword

variable {off : BitVec 7} (hs : s.agenda = .hostAck :: rest) (hp : s.hostPort = .pending a)
  (hsize : a.size = 3) (hoff : a.addr = off) (h8 : off.toNat % 8 = 0)
include hs hp hsize hoff h8

theorem step_hostAck_write (hw : a.write = true)
    (h : { s with agenda := rest }.writeReg off.toNat a.wdata = some t) :
    step s = .next { t with hostPort := .answered .written } := by
  subst hoff
  simp [step_hostAck hs hp, State.serve, State.perform, Access.legal, hw, hsize, h8, h]

theorem step_hostAck_read {v : Word} (hw : a.write = false) (h : s.readReg off.toNat = some v) :
    step s = .next { s with agenda := rest, hostPort := .answered (.data v) } := by
  subst hoff
  have h' : { s with agenda := rest }.readReg a.addr.toNat = some v := h
  simp [step_hostAck hs hp, State.serve, State.perform, Access.legal, hw, hsize, h8, h']

end Doubleword

/-- Settles O17: the write of `STATUS` at offset 8. -/
theorem statusWriteClearsOverrunOnly : Obligations.StatusWriteClearsOverrunOnly := by
  intro s a rest hs hp hw hsize hoff
  rw [step_hostAck_write hs hp hsize hoff rfl hw rfl, State.writeStatus]
  cases hbit : a.wdata.getLsbD 4 <;> simp

/-- Settles O20: a busy block drops the word. -/
theorem commandWriteIsDropped : Obligations.CommandWriteIsDropped := by
  intro s f a rest hs hp hw hsize hoff hf
  rw [step_hostAck_write hs hp hsize hoff rfl hw rfl, State.writeCmd, State.isBusy]
  simp [hf]

theorem opcodeField_eq (w : Word) : opcodeField w = BitVec.ofNat 8 (w.toNat % 256) := by
  apply BitVec.eq_of_toNat_eq
  simp [opcodeField]

/-- Settles O19: an idle block accepts the word. -/
theorem commandWriteIsAccepted : Obligations.CommandWriteIsAccepted := by
  intro s a rest hs hp hw hsize hoff hf
  have hstep : step s = .next
      { State.accept a.wdata { s with agenda := rest } with hostPort := .answered .written } := by
    rw [step_hostAck_write hs hp hsize hoff rfl hw rfl, State.writeCmd, State.isBusy]
    simp [hf]
  refine ⟨_, _, hstep, rfl, rfl, rfl, rfl, rfl, ⟨rfl, rfl⟩, ?_, ?_⟩
  · simp [State.isReady]
  · rw [← opcodeField_eq]
    rfl

/-! ### The layout of `STATUS` -/

theorem append_toNat {m n : Nat} (x : BitVec m) (y : BitVec n) :
    (x ++ y).toNat = x.toNat * 2 ^ n + y.toNat := by
  rw [BitVec.toNat_append, ← Nat.shiftLeft_add_eq_or_of_lt y.isLt, Nat.shiftLeft_eq]

/-- Settles O21: a field is worth its number times the weight of the fields below it. -/
theorem statusLayout : Obligations.StatusLayout := by
  refine ⟨fun s => ?_, by decide⟩
  simp only [State.status, append_toNat, BitVec.toNat_ofBool, State.isReady, State.isInitFail, State.isErr,
    State.isBusy]
  grind

/-! ### Reads and polls -/

theorem serve_agenda (a : Access) (s : State) : (s.serve a).agenda = s.agenda := by
  obtain ⟨x0, x1, x2, b, p, h⟩ | ⟨w, p, -, h⟩ := serve_cases a s <;> rw [h] <;> rfl

theorem answerHost_agenda (s : State) : s.answerHost.agenda = s.agenda := by
  obtain h | ⟨a, -, h⟩ := answerHost_cases s
  · rw [h]
  · rw [h, serve_agenda]

theorem initDone_agenda (s : State) : s.initDone.agenda = s.agenda := by
  unfold State.initDone
  split
  · split <;> rfl
  all_goals rfl

theorem quiet_agenda (h : Quiet s t) : t.agenda = s.agenda := by
  cases h with
  | port | exchange => rfl
  | finish f p => exact (finish_keepsRest s f p).agenda
  | init => exact initDone_agenda s

/-- The block's own move takes no event. -/
theorem ownMove_agenda (s : State) : ∃ t, ownMove s = .next t ∧ t.agenda = s.agenda := by
  obtain ⟨t, h, hq | rfl⟩ := ownMove_cases s
  · exact ⟨t, h, quiet_agenda hq⟩
  · exact ⟨_, h, answerHost_agenda s⟩

/-- A poll that goes on stays on the agenda. -/
theorem pollStatus_goesOn {b : Bool} (h : s.hostWaiting = true ∨ b = true) :
    ∃ t, pollStatus b rest s = .next t ∧ t.agenda = s.agenda := by
  have hgo : (s.hostWaiting || b) = true := by simpa using h
  rw [pollStatus, if_pos hgo]
  exact ownMove_agenda s

theorem pollStatus_ends {b : Bool} (hw : s.hostWaiting = false) (hb : b = false) :
    pollStatus b rest s =
      .next { s with agenda := rest, hostPort := .answered (.data s.status) } := by
  rw [pollStatus, hw, hb]
  rfl

theorem step_hostReq (hs : s.agenda = .hostReq a :: rest) :
    (s.hostWaiting = true → step s = .next { s with agenda := rest }) ∧
    (s.hostWaiting = false → step s = .next { s with agenda := rest, hostPort := .pending a }) := by
  cases hp : s.hostPort <;> simp [step, hs, takeEvent, State.raiseHost, State.hostWaiting, hp]

/-- Settles O15: each readable register at its offset, and the two polls by what ends them. -/
theorem hostPortAnswersReadsAndPolls : Obligations.HostPortAnswersReadsAndPolls := by
  intro s
  refine ⟨fun a rest hs => step_hostReq hs, fun a rest v hs hp hw hsize hreg => ?_,
    fun rest hs => ?_, fun rest hs => ?_⟩
  · rcases hreg with ⟨hoff, rfl⟩ | ⟨hoff, rfl⟩ | ⟨hoff, rfl⟩ | ⟨hoff, rfl⟩ | ⟨hoff, rfl⟩ |
      ⟨hoff, rfl⟩ | ⟨hoff, rfl⟩ | ⟨hoff, rfl⟩ | ⟨hoff, rfl⟩
    all_goals exact step_hostAck_read hs hp hsize hoff rfl hw rfl
  · have hstep : step s = pollStatus s.isBusy rest s := by simp [step, hs, takeEvent]
    rw [hstep]
    exact ⟨fun h => pollStatus_goesOn (by simpa [State.isBusy, Option.isSome_iff_ne_none] using h),
      fun hw hidle => pollStatus_ends hw (by simp [State.isBusy, hidle])⟩
  · have hstep : step s = pollStatus (decide (s.initState = .building)) rest s := by
      simp [step, hs, takeEvent]
    rw [hstep]
    exact ⟨fun h => pollStatus_goesOn (by simpa using h),
      fun hw hinit => pollStatus_ends hw (by simpa using hinit)⟩

/-! ### The collaborator port -/

section Collaborator

variable {f : InFlight} {q : CollabReq}

theorem step_collabReq (hs : s.agenda = .collabReq :: rest) :
    step s = .next { s with agenda := rest }.issueCollab := by
  simp [step, hs, takeEvent]

theorem step_collabRsp (hs : s.agenda = .collabRsp :: rest) :
    step s = .next { s with agenda := rest }.takeRsp := by
  simp [step, hs, takeEvent]

theorem raiseCollab_idle (p : InFlight → Prog) (hf : s.inflight = none) : s.raiseCollab p = s := by
  simp [State.raiseCollab, hf]

theorem takeRsp_idle (hf : s.inflight = none) : s.takeRsp = s := by
  simp [State.takeRsp, hf]

theorem raiseCollab_ask {p : InFlight → Prog} {k : CollabRsp → Prog} (hf : s.inflight = some f)
    (hr : f.request = none) (hp : (f.gate (p f)).resume f.responses = .ask q k) :
    s.raiseCollab p = { s with
      inflight := some { f with request := some q }, collabTrace := s.collabTrace ++ [q] } := by
  simp [State.raiseCollab, hf, hr, hp]

/-- Nothing is put on the port while a request is outstanding, nor by a program that has ended. -/
theorem raiseCollab_held {p : InFlight → Prog} (hf : s.inflight = some f)
    (h : f.request ≠ none ∨ ∃ r, (f.gate (p f)).resume f.responses = .done r) :
    s.raiseCollab p = s := by
  rcases raiseCollab_cases p s with e | ⟨f', q, k, hf', hr, hp, -⟩
  · exact e
  · obtain rfl : f = f' := by simpa [hf] using hf'
    obtain hne | ⟨r, hdone⟩ := h
    · exact absurd hr hne
    · simp [hdone] at hp

theorem takeRsp_outstanding (hf : s.inflight = some f) (hr : f.request = some q) :
    s.takeRsp = { s with
      inflight := some
        { f with request := none, responses := f.responses ++ [s.collabAnswer q] } } := by
  simp [State.takeRsp, hf, hr]

theorem takeRsp_stray (hf : s.inflight = some f) (hr : f.request = none) : s.takeRsp = s := by
  simp [State.takeRsp, hf, hr]

end Collaborator

/-- Settles O28: the two events of an exchange, by what is in flight and outstanding. -/
theorem collabPortExchanges : Obligations.CollabPortExchanges := by
  refine ⟨fun s f rest hf => ⟨fun hs => ?_, fun hs => ?_⟩, ?_,
    fun _ _ _ _ _ _ => ⟨rfl, rfl, rfl, rfl, rfl, rfl, rfl, rfl, rfl⟩⟩
  · rw [step_collabReq hs]
    exact ⟨fun q k hr hp => congrArg _ (raiseCollab_ask hf hr hp),
      fun h => congrArg _ (raiseCollab_held hf h)⟩
  · rw [step_collabRsp hs]
    exact ⟨fun q hr => congrArg _ (takeRsp_outstanding hf hr),
      fun hr => congrArg _ (takeRsp_stray hf hr)⟩
  · rintro s rest hf (hs | hs)
    · exact (step_collabReq hs).trans (congrArg _ (raiseCollab_idle _ hf))
    · exact (step_collabRsp hs).trans (congrArg _ (takeRsp_idle hf))

end Sys2Proof.Proofs.Ports

/-!
CellIds as numbers (10_state.md R20 to R25): the marker, validity, the cells of the curve and their ancestors.
-/

namespace Sys2Proof.Proofs.Cells

open Sys2Proof Sys2Proof.Machine

/-! ### The fields of an id -/

theorem faceField_eq (x : Word) : faceField x = x.toNat / 2 ^ 61 := by
  have hx := x.isLt
  rw [faceField, BitVec.extractLsb'_toNat, Nat.shiftRight_eq_div_pow]
  omega

theorem lowField_eq (x : Word) : lowField x = x.toNat % 2 ^ 61 := by
  simp [lowField]

/-- The marker found is the lowest bit set. -/
theorem ctzBits_spec {n x : Nat} (h0 : x ≠ 0) (hx : x < 2 ^ n) :
    ctzBits n x < n ∧ x % 2 ^ (ctzBits n x + 1) = 2 ^ ctzBits n x := by
  induction n generalizing x with
  | zero => simp at hx; omega
  | succ n ih =>
    rw [ctzBits]
    split
    next hodd => exact ⟨Nat.succ_pos n, by simpa using hodd⟩
    next heven =>
      obtain ⟨hlt, hmod⟩ := ih (x := x / 2) (by omega) (by omega)
      refine ⟨by omega, ?_⟩
      rw [Nat.pow_succ', Nat.mod_mul, hmod, Nat.pow_succ']
      omega

/-- The lowest bit set is found at its index. -/
theorem ctzBits_eq {n b x : Nat} (hb : b < n) (h : x % 2 ^ (b + 1) = 2 ^ b) : ctzBits n x = b := by
  induction n generalizing b x with
  | zero => omega
  | succ n ih =>
    rw [ctzBits]
    cases b with
    | zero => rw [if_pos (by simpa using h)]
    | succ b =>
      have h' : x % 2 + 2 * (x / 2 % 2 ^ (b + 1)) = 2 * 2 ^ b := by
        rw [← Nat.mod_mul, ← Nat.pow_succ', h, Nat.pow_succ']
      rw [if_neg (by omega), ih (b := b) (by omega) (by omega)]

/-! ### Validity -/

theorem markerIndex_eq {x : Word} {b : Nat} (hb : b ≤ 60)
    (h : x.toNat % 2 ^ 61 % 2 ^ (b + 1) = 2 ^ b) : markerIndex x = b := by
  rw [markerIndex, lowField_eq]
  exact ctzBits_eq (Nat.lt_succ_of_le hb) h

theorem markerIndex_spec {x : Word} (h0 : lowField x ≠ 0) :
    markerIndex x ≤ 60 ∧ x.toNat % 2 ^ 61 % 2 ^ (markerIndex x + 1) = 2 ^ markerIndex x := by
  have hlt : lowField x < 2 ^ Config.posBits := by
    rw [lowField_eq]
    exact Nat.mod_lt _ (by decide)
  obtain ⟨hle, hmod⟩ := ctzBits_spec h0 hlt
  exact ⟨Nat.le_of_lt_succ hle, lowField_eq x ▸ hmod⟩

/-- The model's test of an id is the invariant of R22 on its number. -/
theorem validId_iff (x : Word) : validId x = true ↔ IsCellId x := by
  simp only [validId, IsCellId, Bool.and_eq_true, decide_eq_true_eq, faceField_eq, and_assoc]
  refine and_congr_right fun _ => ⟨fun ⟨h0, heven⟩ => ?_, fun ⟨b, hb, heven, h⟩ => ?_⟩
  · obtain ⟨hle, hmod⟩ := markerIndex_spec h0
    exact ⟨_, hle, heven, hmod⟩
  · rw [markerIndex_eq hb h, lowField_eq]
    refine ⟨fun h0 => ?_, heven⟩
    rw [h0, Nat.zero_mod] at h
    exact absurd h (Nat.two_pow_pos b).ne

/-- A valid id passes its check, which hands on its level (44_traversal.md R200). -/
theorem checkId_valid {x : Word} (h : IsCellId x) (n : ErrOperand) (k : Nat → Prog) :
    checkId x n k = k (levelOf x) := by
  rw [← validId_iff] at h
  simp only [validId, Bool.and_eq_true, decide_eq_true_eq] at h
  obtain ⟨⟨hface, hlow⟩, heven⟩ := h
  rw [checkId, if_neg (by omega), if_neg (by omega)]

/-- Settles O46: the answer is `validId`'s. -/
theorem isValidTestsTheInvariant : Obligations.IsValidTestsTheInvariant := by
  intro s f hf
  have hexec : exec .isValid s = .next (s.finish f (isValidProg f.op0)) := complete_runs _ hf
  rw [isValidProg] at hexec
  refine ⟨fun h => ⟨_, hexec, ?_⟩, fun h => ⟨_, hexec, ?_⟩⟩
  · rw [if_pos ((validId_iff _).mpr h)]
    exact finish_return1 s f 1
  · rw [if_neg (mt (validId_iff _).mp h)]
    exact finish_return1 s f 0

/-! ### The cells of the curve -/

theorem two_pow_split {l : Nat} (hl : l ≤ 30) : 4 ^ l * 2 ^ (2 * (30 - l) + 1) = 2 ^ 61 := by
  rw [show (4 : Nat) = 2 ^ 2 from rfl, ← Nat.pow_mul, ← Nat.pow_add]
  congr 1
  omega

section Cell

variable {l x : Nat} (hl : l ≤ 30) (hx : x < 6 * 4 ^ l)
include hl hx

theorem cellAt_toNat :
    (cellAt l x).toNat = x * 2 ^ (2 * (30 - l) + 1) + 2 ^ (2 * (30 - l)) := by
  have hsplit := two_pow_split hl
  have hstep : (x + 1) * 2 ^ (2 * (30 - l) + 1) ≤ 6 * 4 ^ l * 2 ^ (2 * (30 - l) + 1) :=
    Nat.mul_le_mul_right _ hx
  have hpow : 2 ^ (2 * (30 - l)) < 2 ^ (2 * (30 - l) + 1) := Nat.pow_lt_pow_succ (by decide)
  rw [Nat.mul_assoc, hsplit, Nat.succ_mul] at hstep
  exact Nat.mod_eq_of_lt (by omega)

theorem cellAt_marker :
    (cellAt l x).toNat % 2 ^ (2 * (30 - l) + 1) = 2 ^ (2 * (30 - l)) := by
  rw [cellAt_toNat hl hx, Nat.mul_add_mod_self_right,
    Nat.mod_eq_of_lt (Nat.pow_lt_pow_succ (by decide))]

theorem cellAt_index : (cellAt l x).toNat / 2 ^ (2 * (30 - l) + 1) = x := by
  rw [cellAt_toNat hl hx, Nat.mul_comm, Nat.mul_add_div (Nat.two_pow_pos _),
    Nat.div_eq_of_lt (Nat.pow_lt_pow_succ (by decide)), Nat.add_zero]

theorem cellAt_face : (cellAt l x).toNat / 2 ^ 61 = x / 4 ^ l := by
  rw [← two_pow_split hl, Nat.mul_comm, ← Nat.div_div_eq_div_mul, cellAt_index hl hx]

theorem cellAt_lowField_marker :
    (cellAt l x).toNat % 2 ^ 61 % 2 ^ (2 * (30 - l) + 1) = 2 ^ (2 * (30 - l)) := by
  rw [Nat.mod_mod_of_dvd _ (Nat.pow_dvd_pow 2 (by omega)), cellAt_marker hl hx]

theorem cellAt_markerIndex : markerIndex (cellAt l x) = 2 * (30 - l) :=
  markerIndex_eq (by omega) (cellAt_lowField_marker hl hx)

theorem cellAt_isCellId : IsCellId (cellAt l x) := by
  refine ⟨?_, 2 * (30 - l), by omega, by omega, cellAt_lowField_marker hl hx⟩
  rw [cellAt_face hl hx]
  exact Nat.le_of_lt_succ (Nat.div_lt_of_lt_mul (by omega))

theorem levelOf_cellAt : levelOf (cellAt l x) = l := by
  rw [levelOf, cellAt_markerIndex hl hx]
  omega

theorem curveIndex_cellAt : curveIndex (cellAt l x) l = x := by
  rw [curveIndex, Nat.shiftRight_eq_div_pow]
  exact cellAt_index hl hx

theorem lsb_cellAt : lsb (cellAt l x) = 2 ^ (2 * (30 - l)) := by
  rw [lsb, cellAt_markerIndex hl hx]

end Cell

/-- A valid id is the cell of its marker's level whose index is what stands above the marker. -/
theorem exists_cellAt {id : Word} (h : IsCellId id) : ∃ l ≤ 30, ∃ x < 6 * 4 ^ l, id = cellAt l x := by
  obtain ⟨hface, b, hb, heven, hmod⟩ := h
  obtain ⟨l, hl, rfl⟩ : ∃ l ≤ 30, b = 2 * (30 - l) := ⟨30 - b / 2, by omega, by omega⟩
  rw [Nat.mod_mod_of_dvd _ (Nat.pow_dvd_pow 2 (by omega))] at hmod
  have hx : id.toNat / 2 ^ (2 * (30 - l) + 1) < 6 * 4 ^ l := by
    rw [Nat.div_lt_iff_lt_mul (Nat.two_pow_pos _), Nat.mul_assoc, two_pow_split hl]
    omega
  refine ⟨l, hl, _, hx, BitVec.eq_of_toNat_eq ?_⟩
  rw [cellAt_toNat hl hx, ← hmod, Nat.div_add_mod']

/-- Settles O47: the two directions. -/
theorem cellIdsAreCurveCells : Obligations.CellIdsAreCurveCells :=
  ⟨fun _ => exists_cellAt, fun _ _ hl hx => ⟨cellAt_isCellId hl hx, levelOf_cellAt hl hx,
    curveIndex_cellAt hl hx, lsb_cellAt hl hx⟩⟩

/-! ### Ancestors -/

theorem markerWord_getLsbD (l i : Nat) :
    (markerWord l).getLsbD i = decide (i = 2 * (30 - l)) := by
  simp only [markerWord, BitVec.getLsbD_shiftLeft, BitVec.getLsbD_one]
  grind

/-- The negated marker masks the bits below it. -/
theorem neg_markerWord_getLsbD {l i : Nat} (hi : i < 64) :
    (-markerWord l).getLsbD i = decide (2 * (30 - l) ≤ i) := by
  simp only [BitVec.getLsbD_neg, markerWord_getLsbD]
  grind

/-- What stands above the marker's place is kept and the marker put below it (44_traversal.md R206). -/
theorem parentId_toNat (id : Word) (l : Nat) :
    (parentId id l).toNat =
      id.toNat / 2 ^ (2 * (30 - l) + 1) * 2 ^ (2 * (30 - l) + 1) + 2 ^ (2 * (30 - l)) := by
  apply Nat.eq_of_testBit_eq
  intro i
  have hlow : 2 ^ (2 * (30 - l)) < 2 ^ (2 * (30 - l) + 1) := Nat.pow_lt_pow_succ (by decide)
  rw [Nat.mul_comm, Nat.testBit_two_pow_mul_add _ hlow, Nat.testBit_two_pow, Nat.testBit_div_two_pow,
    BitVec.testBit_toNat, BitVec.testBit_toNat, parentId, BitVec.getLsbD_or, BitVec.getLsbD_and,
    markerWord_getLsbD]
  by_cases hi : i < 64
  · rw [neg_markerWord_getLsbD hi]
    grind
  · rw [BitVec.getLsbD_of_ge id i (by omega)]
    grind

/-- The ancestor's index drops two binary digits for each level. -/
theorem parentId_cellAt {l l' x : Nat} (hl : l ≤ 30) (hx : x < 6 * 4 ^ l) (h : l' ≤ l) :
    parentId (cellAt l x) l' = cellAt l' (x / 4 ^ (l - l')) := by
  have hpow : 4 ^ l' * 4 ^ (l - l') = 4 ^ l := by rw [← Nat.pow_add, Nat.add_sub_of_le h]
  have hx' : x / 4 ^ (l - l') < 6 * 4 ^ l' := by
    rw [Nat.div_lt_iff_lt_mul (by positivity), Nat.mul_assoc, hpow]
    exact hx
  have hshift : 2 ^ (2 * (30 - l') + 1) = 2 ^ (2 * (30 - l) + 1) * 4 ^ (l - l') := by
    rw [show (4 : Nat) = 2 ^ 2 from rfl, ← Nat.pow_mul, ← Nat.pow_add]
    congr 1
    omega
  apply BitVec.eq_of_toNat_eq
  rw [parentId_toNat, cellAt_toNat (h.trans hl) hx', hshift, ← Nat.div_div_eq_div_mul,
    cellAt_index hl hx]

/-- Settles O50: the operand is valid, so the level decides. -/
theorem parentIsTheAncestor : Obligations.ParentIsTheAncestor := by
  intro s f l x l' hf hl hx hop
  have hexec : exec (.parent l') s = .next (s.finish f (parentProg l' f.op0)) := complete_runs _ hf
  rw [hop, parentProg, checkId_valid (cellAt_isCellId hl hx), levelOf_cellAt hl hx] at hexec
  refine ⟨fun h => ⟨_, hexec, ?_⟩, fun h => ⟨_, hexec, ?_⟩⟩
  · rw [if_neg (by omega), parentId_cellAt hl hx h]
    exact finish_return1 s f _
  · rw [if_pos h]
    exact finish_raise s f _ _

end Sys2Proof.Proofs.Cells

/-!
The encoder's position (42_encoder.md R160 to R162, R166): it stays below the face field.
-/

namespace Sys2Proof.Proofs.EncoderRange

open Sys2Proof Sys2Proof.Machine

theorem chunk_lt {e m n : Nat} (he : e < 2 ^ m) (h : m + n ≤ 60) : e <<< n < 2 ^ 60 := by
  rw [Nat.shiftLeft_eq]
  calc e * 2 ^ n < 2 ^ m * 2 ^ n := Nat.mul_lt_mul_of_pos_right he (Nat.two_pow_pos n)
    _ = 2 ^ (m + n) := (Nat.pow_add 2 m n).symm
    _ ≤ 2 ^ 60 := Nat.pow_le_pow_right (by decide) h

theorem lutRead_digits_lt (t : Lut) (key : Nat) : lutRead t key >>> 2 < 2 ^ 8 := by
  have h := lutRead_lt t key
  rw [Nat.shiftRight_eq_div_pow]
  omega

/-- A chunk below the top one adds eight bits of the position (42_encoder.md R161). -/
theorem encodeChunks_lt (posLut : Lut) (i j : Nat) {k P : Nat} (o : Nat) (hk : k ≤ 7)
    (hP : P < 2 ^ 60) : encodeChunks posLut i j k P o < 2 ^ 60 := by
  induction k generalizing P o with
  | zero => exact hP
  | succ k ih =>
    exact ih _ (by omega) (Nat.or_lt_two_pow hP (chunk_lt (lutRead_digits_lt _ _) (by omega)))

/-- The top chunk of a legal address has two bits of each coordinate, and two digits of the position. -/
theorem builtPosLut_top {i4 j4 o : Nat} (hi : i4 < 4) (hj : j4 < 4) (ho : o < 2) :
    lutRead builtPosLut ((i4 <<< 6) ||| (j4 <<< 2) ||| o) >>> 2 < 2 ^ 4 := by
  have hall : ∀ i4 < 4, ∀ j4 < 4, ∀ o < 2, ∀ k, k = (i4 <<< 6) ||| (j4 <<< 2) ||| o →
      k < 1024 ∧ (posEntry (k >>> 6) ((k >>> 2) &&& 15) (k &&& 3) % 1024) >>> 2 < 2 ^ 4 := by
    simp only [forall_eq]
    decide
  obtain ⟨hkey, hentry⟩ := hall i4 hi j4 hj o ho _ rfl
  rwa [lutRead_builtPosLut hkey]

theorem top_chunk_lt {i : Nat} (hi : i < 2 ^ 30) : (i >>> (4 * 7)) &&& 0xF < 4 :=
  Nat.and_le_left.trans_lt (by rw [Nat.shiftRight_eq_div_pow]; omega)

theorem encodePosition_lt {face i j : Nat} (hi : i < 2 ^ 30) (hj : j < 2 ^ 30) :
    encodePosition builtPosLut face i j < 2 ^ 60 := by
  have ho : face &&& swapMask < 2 := Nat.lt_succ_of_le Nat.and_le_right
  have htop := builtPosLut_top (top_chunk_lt hi) (top_chunk_lt hj) ho
  have hchunk := chunk_lt (n := 8 * 7) htop (by decide)
  rw [encodePosition, Config.numChunks, encodeChunks]
  exact encodeChunks_lt _ i j _ le_rfl (Nat.or_lt_two_pow (Nat.two_pow_pos 60) hchunk)

/-- The three fields of a leaf do not overlap (42_encoder.md R162). -/
theorem fromFaceIj_toNat {posLut : Lut} {face i j : Nat} (hface : face ≤ 5)
    (hpos : encodePosition posLut face i j < 2 ^ 60) :
    (fromFaceIj posLut face i j).toNat = face * 2 ^ 61 + encodePosition posLut face i j * 2 + 1 := by
  have hlow : (encodePosition posLut face i j <<< 1) ||| 1 = encodePosition posLut face i j * 2 + 1 := by
    rw [← Nat.shiftLeft_add_eq_or_of_lt (by decide), Nat.shiftLeft_eq, Nat.pow_one]
  rw [fromFaceIj, Nat.or_assoc, hlow, ← Nat.shiftLeft_add_eq_or_of_lt (by omega), Nat.shiftLeft_eq,
    BitVec.toNat_ofNat, Nat.mod_eq_of_lt (by omega), Nat.add_assoc]

/-- Settles O41: a leaf's marker is bit 0. -/
theorem encoderGivesValidLeaves : Obligations.EncoderGivesValidLeaves := by
  intro face i j hface hi hj
  have hpos := encodePosition_lt (face := face) hi hj
  have hleaf := fromFaceIj_toNat hface hpos
  refine ⟨hpos, ⟨?_, 0, by omega, rfl, ?_⟩, hleaf⟩ <;> rw [hleaf] <;> omega

end Sys2Proof.Proofs.EncoderRange

/-!
The byte lanes of the host port and the accesses it answers with a bus error (20_memory.md R64 to R66).
-/

namespace Sys2Proof.Proofs.HostWindow

open Sys2Proof Sys2Proof.Machine Sys2Proof.Proofs.Ports

/-! ### Byte lanes -/

theorem laneValue_append (bs : List Byte) (b : Byte) :
    laneValue (bs ++ [b]) = laneValue bs + 2 ^ (8 * bs.length) * b.toNat := by
  induction bs with
  | nil => simp [laneValue]
  | cons c bs ih =>
    rw [List.cons_append, laneValue, laneValue, ih, List.length_cons, Nat.mul_succ, Nat.pow_add]
    ring

/-- The first `k` lanes spell the `8k` low bits of the word. -/
theorem laneValue_lanes (w : Word) (k : Nat) :
    laneValue ((List.range k).map fun n => w.extractLsb' (8 * n) 8) = w.toNat % 2 ^ (8 * k) := by
  induction k with
  | zero => rw [Nat.mul_zero, Nat.pow_zero, Nat.mod_one]; rfl
  | succ k ih =>
    rw [List.range_succ, List.map_append, List.map_singleton, laneValue_append, ih, List.length_map,
      List.length_range, BitVec.extractLsb'_toNat, Nat.shiftRight_eq_div_pow, Nat.mul_succ,
      Nat.pow_add, Nat.mod_mul]

/-- Settles O5: all eight lanes spell all 64 bits. -/
theorem lanesCarryTheWord : Obligations.LanesCarryTheWord := by
  refine fun w => ⟨?_, fun n hn => ?_⟩
  · rw [wordOfLanes, if_pos (by simp [lanesOfWord]), lanesOfWord, laneValue_lanes,
      Nat.mod_eq_of_lt w.isLt, BitVec.ofNat_toNat, BitVec.setWidth_eq]
  · simp [lanesOfWord, hn, Nat.shiftRight_eq_div_pow]

/-! ### Bus errors -/

/-- An illegal access, or one whose register does not take it, has no effect. -/
theorem perform_busError {s : State} {a : Access}
    (hw : a.legal = true → a.write = true → s.writeReg a.addr.toNat a.wdata = none)
    (hr : a.legal = true → a.write = false → s.readReg a.addr.toNat = none) :
    s.perform a = (s, .busError) := by
  unfold State.perform
  split
  next hl =>
    split
    next h => rw [hw hl h]
    next h => rw [hr hl (by simpa using h)]
  next => rfl

theorem step_hostAck_busError {s : State} {a : Access} {rest : List Event}
    (hs : s.agenda = .hostAck :: rest) (hp : s.hostPort = .pending a)
    (h : { s with agenda := rest }.perform a = ({ s with agenda := rest }, .busError)) :
    step s = .next { s with agenda := rest, hostPort := .answered .busError } := by
  rw [step_hostAck hs hp, State.serve, h]

theorem legal_iff (a : Access) : a.legal = true ↔ a.size = 3 ∧ a.addr.toNat % 8 = 0 := by
  simp [Access.legal]

/-- Settles O13: the access is not performed. -/
theorem illegalAccessIsBusError : Obligations.IllegalAccessIsBusError := by
  intro s a rest hs hp hillegal
  have hl : ¬a.legal = true := by rw [legal_iff]; tauto
  exact ⟨step_hostAck_busError hs hp
    (perform_busError (fun h => absurd h hl) (fun h => absurd h hl)), rfl, rfl⟩

/-- No register above `OP2` is written. -/
theorem writeReg_eq_none {off : Nat} (h : 0x28 ≤ off) (v : Word) (s : State) :
    s.writeReg off v = none := by
  cases hw : s.writeReg off v with
  | none => rfl
  | some t => rcases writeReg_cases hw with h | h | h | h | h <;> omega

/-- Nothing is read at the gap before `RES0` nor above `RES3`. -/
theorem readReg_eq_none {off : Nat} (h : off = 0x28 ∨ 0x50 ≤ off) (s : State) :
    s.readReg off = none := by
  unfold State.readReg
  split <;> simp <;> omega

/-- Settles O14: none of the offsets is a register that takes the access. -/
theorem reservedAndReadOnlyAreBusErrors : Obligations.ReservedAndReadOnlyAreBusErrors := by
  intro s a rest hs hp hoff
  have hoff' : a.addr.toNat = 0x28 ∨ 0x50 ≤ a.addr.toNat ∨
      a.write = true ∧ 0x30 ≤ a.addr.toNat := by
    rcases hoff with h | ⟨h, -⟩ | ⟨hw, h, -⟩
    · exact .inl (by rw [h]; rfl)
    · exact .inr (.inl h)
    · exact .inr (.inr ⟨hw, h⟩)
  refine step_hostAck_busError hs hp (perform_busError (fun _ _ => ?_) (fun _ hr => ?_))
  · exact writeReg_eq_none (by omega) _ _
  · exact readReg_eq_none (by simpa [hr] using hoff') _

end Sys2Proof.Proofs.HostWindow

/-!
The collaborator's part in a completion: how far its exchanges have come does not matter (20_memory.md R77,
70_reset_and_hazards.md R305), and what FROM_LATLNG makes of its answers (42_encoder.md R165).
-/

namespace Sys2Proof.Proofs.Exchanges

open Sys2Proof Sys2Proof.Machine Sys2Proof.Proofs.Steps

/-! ### Completion after some exchanges -/

/-- The requests a completion still adds are those the trace does not show. -/
theorem exchanged_trace {p : Prog} {ans : CollabReq → CollabRsp} {f : InFlight}
    {trace : List CollabReq} (h : Exchanged p ans f trace) :
    trace ++ ((p.resume f.responses).requests ans).drop (if f.request.isSome then 1 else 0) =
      p.requests ans := by
  obtain ⟨n, -, hrsp, htrace⟩ := h
  rw [hrsp, Prog.requests_resume]
  cases hr : f.request with
  | none =>
    simp only [hr] at htrace
    simp [htrace]
  | some q =>
    simp only [hr] at htrace
    simp [htrace.2]

theorem exchanged_run {p : Prog} {ans : CollabReq → CollabRsp} {f : InFlight}
    {trace : List CollabReq} (h : Exchanged p ans f trace) :
    (p.resume f.responses).run ans = p.run ans := by
  obtain ⟨n, -, hrsp, -⟩ := h
  rw [hrsp, Prog.run_resume]

/-- A completion shows the whole program's requests and its result, wherever it began. -/
theorem finish_exchanged {s : State} {f : InFlight} {p : Prog}
    (h : Exchanged p s.collabAnswer f s.collabTrace) :
    s.finish f p = { s with collabTrace := p.requests s.collabAnswer }.applyResult
      (p.run s.collabAnswer) := by
  rw [State.finish, exchanged_trace h, exchanged_run h]

/-- Settles O27: with no exchange begun the completion is also one of `finish_exchanged`. -/
theorem exchangesRefineCompletion : Obligations.ExchangesRefineCompletion := by
  intro i s f hf hd hx
  have hprog : wordProg s f = commandProg i s f := by rw [wordProg, hd]
  rw [hprog] at hx
  have hfresh := finish_exchanged (s := { s with
      inflight := some { f with request := none, responses := [] }, collabTrace := [] })
    (exchanged_fresh (f := { f with request := none, responses := [] })
      (f.gate (commandProg i s f)) s.collabAnswer ⟨rfl, rfl⟩)
  rw [exec_eq_complete, exec_eq_complete, complete_busy _ hf, complete_busy _ rfl,
    finish_exchanged hx]
  exact congrArg _ hfresh.symm

/-! ### FROM_LATLNG -/

theorem checkF64_nan {x : Word} (h : f64IsNaN x = true) (n : ErrOperand) (k : Word → Prog) :
    checkF64 x n k = raise .invalidOperand n := if_pos h

theorem checkF64_value {x : Word} (h : f64IsNaN x = false) (n : ErrOperand) (k : Word → Prog) :
    checkF64 x n k = k x := if_neg (by simp [h])

section FaceUV

variable {ans : CollabReq → CollabRsp} {p : Config.Point} {r : CollabRsp}
  (k : Nat → Word → Word → Prog) (hr : r = ans (.faceUVFromPt p))
include hr

/-- An answer that is no face point ends the command (60_exceptions.md R270). -/
theorem askFaceUV_fault (h : 5 < r.face.toNat ∨ f64IsNaN r.a = true ∨ f64IsNaN r.b = true) :
    (askFaceUV p k).run ans = .error .projectionFault .cmdw ∧
    (askFaceUV p k).requests ans = [.faceUVFromPt p] := by
  simp only [askFaceUV, Prog.run_ask, Prog.requests_ask, ← hr, if_pos h, raise_run, raise_requests,
    and_self]

theorem askFaceUV_point (h : ¬(5 < r.face.toNat ∨ f64IsNaN r.a = true ∨ f64IsNaN r.b = true)) :
    (askFaceUV p k).run ans = (k r.face.toNat r.a r.b).run ans ∧
    (askFaceUV p k).requests ans =
      .faceUVFromPt p :: (k r.face.toNat r.a r.b).requests ans := by
  simp only [askFaceUV, Prog.run_ask, Prog.requests_ask, ← hr, if_neg h, and_self]

end FaceUV

/-- Settles O43: the two operand checks, and the second answer taken or refused. -/
theorem fromLatLngAsksTwice : Obligations.FromLatLngAsksTwice := by
  intro s f hf hfresh
  have hexec : exec .fromLatLng s = .next (s.finish f (fromLatLngProg s.posLut f.op0 f.op1)) :=
    complete_runs _ hf
  rw [fromLatLngProg] at hexec
  refine ⟨fun hlat => ?_, fun hlat hlng => ?_, fun hlat hlng q1 q2 r hq1 hq2 hr => ?_⟩
  · rw [checkF64_nan hlat] at hexec
    exact ⟨_, hexec, finish_raise s f _ _⟩
  · rw [checkF64_value hlat, checkF64_nan hlng] at hexec
    exact ⟨_, hexec, finish_raise s f _ _⟩
  · rw [checkF64_value hlat, checkF64_value hlng, ← hq1] at hexec
    subst hq2
    refine ⟨fun h => ⟨_, hexec, ?_⟩, fun h => ⟨_, hexec, ?_⟩⟩
    · obtain ⟨hrun, hreq⟩ :=
        askFaceUV_fault (fun face u v => return1 (fromFaceUv s.posLut face u v)) hr h
      rw [← hreq]
      exact finish_fresh_error hfresh hrun
    · obtain ⟨hrun, hreq⟩ :=
        askFaceUV_point (fun face u v => return1 (fromFaceUv s.posLut face u v)) hr h
      rw [return1_requests] at hreq
      rw [← hreq]
      exact finish_fresh_one hfresh hrun

end Sys2Proof.Proofs.Exchanges

/-!
The command word (30_encoding.md R91 to R98, R102): the decoder and the encoder on the word's number.
-/

namespace Sys2Proof.Proofs.Encoding

open Sys2Proof Sys2Proof.Machine

/-! ### The fields of a word -/

section Fields

variable (w : Word)

theorem opcodeField_toNat : (opcodeField w).toNat = w.toNat % 256 := by
  simp [opcodeField]

theorem levelField_toNat : (levelField w).toNat = w.toNat / 2 ^ 8 % 64 := by
  simp [levelField, Nat.shiftRight_eq_div_pow]

theorem tableField_toNat : (tableField w).toNat = w.toNat / 2 ^ 14 % 2 := by
  simp [tableField, Nat.shiftRight_eq_div_pow]

theorem reservedField_toNat : (reservedField w).toNat = w.toNat / 2 ^ 15 := by
  have hw := w.isLt
  rw [reservedField, BitVec.extractLsb'_toNat, Nat.shiftRight_eq_div_pow]
  omega

end Fields

/-! ### The fields of a command -/

variable {w : Word} {i : Instr} {op : Nat} {lvl : BitVec 6} {tsel : BitVec 1}

theorem fieldOfTable_eq_iff (t : Table) (b : BitVec 1) :
    fieldOfTable t = b.toNat ↔ tableOfField b = t := by
  revert b
  cases t <;> decide

/-- The fields of a command fit their places, and only PARENT and LUT_READ use one (30_encoding.md R92). -/
theorem fields_range (h : i.wf = true) :
    0x01 ≤ i.opcode ∧ i.opcode ≤ 0x11 ∧ i.levelImm < 64 ∧ i.tableImm < 2 ∧
      (i.opcode ≠ 0x0B → i.levelImm = 0) ∧ (i.opcode ≠ 0x01 → i.tableImm = 0) := by
  cases i with
  | parent l => simpa [Instr.opcode, Instr.levelImm, Instr.tableImm] using of_decide_eq_true h
  | lutRead t => cases t <;> decide
  | _ => decide

theorem encode_toNat (h : i.wf = true) :
    (encode i).toNat = i.tableImm * 2 ^ 14 + i.levelImm * 2 ^ 8 + i.opcode := by
  have hrange := fields_range h
  exact Nat.mod_eq_of_lt (by omega)

/-- Every opcode of the command map names a command (30_encoding.md R93). -/
theorem instrOfOpcode_isSome (h1 : 0x01 ≤ op) (h2 : op ≤ 0x11) :
    (instrOfOpcode op lvl tsel).isSome := by
  interval_cases op <;> rfl

/-- The command an opcode names has that opcode, and the fields the opcode uses. -/
theorem instrOfOpcode_fields (h : instrOfOpcode op lvl tsel = some i) :
    i.wf = true ∧ i.opcode = op ∧
      (op = 0x0B → i.levelImm = lvl.toNat) ∧ (op = 0x01 → i.tableImm = tsel.toNat) := by
  unfold instrOfOpcode at h
  split at h <;> cases h <;>
    simp [Instr.wf, Instr.opcode, Instr.levelImm, Instr.tableImm, fieldOfTable_eq_iff, lvl.isLt]

/-- A command is the one its own opcode and fields name. -/
theorem instrOfOpcode_opcode (hl : i.opcode = 0x0B → i.levelImm = lvl.toNat)
    (ht : i.opcode = 0x01 → i.tableImm = tsel.toNat) :
    instrOfOpcode i.opcode lvl tsel = some i := by
  cases i with
  | lutRead t => exact congrArg (some ∘ Instr.lutRead) ((fieldOfTable_eq_iff t tsel).mp (ht rfl))
  | parent l => exact congrArg (some ∘ Instr.parent) (hl rfl).symm
  | _ => rfl

/-! ### The decoder -/

/-- The decoder's four tests (30_encoding.md R98). -/
theorem decode_eq_ok_iff : decode w = .ok i ↔
    instrOfOpcode (w.toNat % 256) (levelField w) (tableField w) = some i ∧ w.toNat / 2 ^ 15 = 0 ∧
      (w.toNat % 256 ≠ 0x0B → w.toNat / 2 ^ 8 % 64 = 0) ∧
      (w.toNat % 256 ≠ 0x01 → w.toNat / 2 ^ 14 % 2 = 0) := by
  rw [← opcodeField_toNat, ← levelField_toNat, ← tableField_toNat, ← reservedField_toNat]
  unfold decode
  split
  next h => simp [h]
  next j h =>
    simp only [h, ← BitVec.toNat_inj, ne_eq]
    split_ifs <;> simp_all

/-- The words that decode to a command: its encoding and no other. -/
theorem decode_eq_ok_iff_encode : decode w = .ok i ↔ i.wf = true ∧ encode i = w := by
  rw [decode_eq_ok_iff]
  constructor
  · rintro ⟨hi, hrsvd, hlevel, htable⟩
    obtain ⟨hwf, hop, hl, ht⟩ := instrOfOpcode_fields hi
    rw [levelField_toNat] at hl
    rw [tableField_toNat] at ht
    have hrange := fields_range hwf
    have hencode := encode_toNat hwf
    exact ⟨hwf, BitVec.eq_of_toNat_eq (by omega)⟩
  · rintro ⟨hwf, rfl⟩
    have hrange := fields_range hwf
    have hencode := encode_toNat hwf
    have hop : (encode i).toNat % 256 = i.opcode := by omega
    have hl : i.opcode = 0x0B → i.levelImm = (levelField (encode i)).toNat := by
      rw [levelField_toNat]
      omega
    have ht : i.opcode = 0x01 → i.tableImm = (tableField (encode i)).toNat := by
      rw [tableField_toNat]
      omega
    exact ⟨hop ▸ instrOfOpcode_opcode hl ht, by omega, by omega, by omega⟩

/-- Settles O1: no bit of a field is lost in the encoding. -/
theorem decodeEncodeRoundTrip : Obligations.DecodeEncodeRoundTrip := fun _ h =>
  decode_eq_ok_iff_encode.mpr ⟨h, rfl⟩

/-- Settles O2: the four tests leave no bit of the word unread. -/
theorem encodeDecodeRoundTrip : Obligations.EncodeDecodeRoundTrip := fun _ _ =>
  decode_eq_ok_iff_encode.mp

/-- Settles O3: a word that decodes is an encoding, whose fields pass the tests; one that passes them names
a command by its opcode. -/
theorem decodeIsTotalAndExact : Obligations.DecodeIsTotalAndExact := by
  refine fun w => ⟨fun hbad => ?_, fun hgood => ?_⟩
  · cases hd : decode w with
    | error e => exact ⟨e, rfl⟩
    | ok i =>
      obtain ⟨hwf, rfl⟩ := decode_eq_ok_iff_encode.mp hd
      have hrange := fields_range hwf
      have hencode := encode_toNat hwf
      omega
  · obtain ⟨i, hi⟩ := Option.isSome_iff_exists.mp
      (instrOfOpcode_isSome (op := w.toNat % 256) (lvl := levelField w) (tsel := tableField w)
        (by omega) (by omega))
    have hd : decode w = .ok i := decode_eq_ok_iff.mpr ⟨hi, by omega, by omega, by omega⟩
    obtain ⟨hwf, rfl⟩ := decode_eq_ok_iff_encode.mp hd
    have hrange := fields_range hwf
    have hencode := encode_toNat hwf
    exact ⟨i, hd, by omega⟩

/-- Settles O4: nine closed words. -/
theorem specWordsDecode : Obligations.SpecWordsDecode := by
  unfold Obligations.SpecWordsDecode
  decide

end Sys2Proof.Proofs.Encoding

/-!
The completion of a decoded command: the step that runs it (70_reset_and_hazards.md R305) and the two ways it
ends (60_exceptions.md R260, R261; 30_encoding.md R94).
-/

namespace Sys2Proof.Proofs.Completion

open Sys2Proof Sys2Proof.Machine Sys2Proof.Proofs.Outcomes

/-! ### The steps that complete -/

section Steps

variable {s : State} {f : InFlight} {i : Instr} (hf : s.inflight = some f)
  (hd : decode f.word = .ok i)
include hf hd

theorem completeInFlight_decoded : completeInFlight s = exec i s := by
  simp [completeInFlight, hf, hd]

/-- With no request of the host and no endless wait the block's own move is the completion. -/
theorem ownMove_decoded (hw : s.hostWaiting = false) (hst : s.stalled = false) :
    ownMove s = exec i s := by
  have hb : s.isBusy = true := by simp [State.isBusy, hf]
  simp [ownMove, hw, hst, hb, completeInFlight_decoded hf hd]

end Steps

theorem pollStatus_true (rest : List Event) (s : State) : pollStatus true rest s = ownMove s := by
  simp [pollStatus]

/-- Settles O22: a poll that goes on leaves the block to its own move. -/
theorem stepRunsTheDecodedCommand : Obligations.StepRunsTheDecodedCommand := by
  refine fun s f i hf hd => ⟨fun rest hs => ?_, fun hw hst hs => ?_⟩
  · simp only [step, hs, takeEvent]
    exact completeInFlight_decoded hf hd
  · rw [← ownMove_decoded hf hd hw hst]
    obtain hs | ⟨rest, hs⟩ | ⟨hinit, rest, hs⟩ := hs
    · simp only [step, hs]
    · simp [step, hs, takeEvent, State.isBusy, hf, pollStatus_true]
    · simp [step, hs, takeEvent, hinit, pollStatus_true]

/-! ### The results of each command -/

/-- A command ends with four results, or with one, as `four` says, or with an error. -/
def Answers (four : Prop) : CmdResult → Prop
  | .one _ => ¬four
  | .four _ _ _ _ => four
  | .error e _ => e ≠ .noError

section Ends

variable {four : Prop} {p : Prog}

theorem one_answers (h : ¬four) (v : Word) : AllEnds (Answers four) (return1 v) := .done h

theorem four_answers (h : four) (r0 r1 r2 r3 : Word) :
    AllEnds (Answers four) (.done (.four r0 r1 r2 r3)) := .done h

/-- A check in front of a program only adds an error to its ends. -/
theorem guard_answers {c : Prop} [Decidable c] {e : ErrCode} {a : ErrOperand} (he : e ≠ .noError)
    (h : AllEnds (Answers four) p) : AllEnds (Answers four) (if c then raise e a else p) := by
  split
  · exact .done he
  · exact h

theorem checkId_answers {x : Word} {n : ErrOperand} {k : Nat → Prog}
    (h : ∀ l, AllEnds (Answers four) (k l)) : AllEnds (Answers four) (checkId x n k) :=
  guard_answers nofun (guard_answers nofun (h _))

theorem checkFace_answers {x : Word} {n : ErrOperand} {k : Nat → Prog}
    (h : ∀ face, AllEnds (Answers four) (k face)) : AllEnds (Answers four) (checkFace x n k) :=
  guard_answers nofun (h _)

theorem checkBelow_answers {bound : Nat} {x : Word} {n : ErrOperand} {k : Nat → Prog}
    (h : ∀ v, AllEnds (Answers four) (k v)) : AllEnds (Answers four) (checkBelow bound x n k) :=
  guard_answers nofun (h _)

theorem checkF64_answers {x : Word} {n : ErrOperand} {k : Word → Prog}
    (h : ∀ v, AllEnds (Answers four) (k v)) : AllEnds (Answers four) (checkF64 x n k) :=
  guard_answers nofun (h _)

theorem gate_answers (f : InFlight) (h : AllEnds (Answers four) p) :
    AllEnds (Answers four) (f.gate p) := by
  unfold InFlight.gate
  split
  · exact h
  · exact .done nofun

theorem askFaceUV_answers {pt : Config.Point} {k : Nat → Word → Word → Prog}
    (h : ∀ face u v, AllEnds (Answers four) (k face u v)) :
    AllEnds (Answers four) (askFaceUV pt k) :=
  .ask fun _ => guard_answers nofun (h _ _ _)

theorem fromFaceIjWrap_answers {posLut : Lut} {face : Nat} {i j : Int} {k : Word → Prog}
    (h : ∀ leaf, AllEnds (Answers four) (k leaf)) :
    AllEnds (Answers four) (fromFaceIjWrap posLut face i j k) :=
  .ask fun _ => askFaceUV_answers fun _ _ _ => h _

theorem fromFaceIjSame_answers {posLut : Lut} {face : Nat} {i j : Int} {same : Bool}
    {k : Word → Prog} (h : ∀ leaf, AllEnds (Answers four) (k leaf)) :
    AllEnds (Answers four) (fromFaceIjSame posLut face i j same k) := by
  unfold fromFaceIjSame
  split
  · exact h _
  · exact fromFaceIjWrap_answers h

theorem parentProg_answers (h : ¬four) (l : Nat) (x : Word) :
    AllEnds (Answers four) (parentProg l x) :=
  checkId_answers fun _ => guard_answers nofun (one_answers h _)

theorem fromFaceIjWrapProg_answers (h : ¬four) (posLut : Lut) (x y z : Word) :
    AllEnds (Answers four) (fromFaceIjWrapProg posLut x y z) :=
  checkFace_answers fun _ => fromFaceIjWrap_answers (one_answers h)

theorem edgeNeighborsProg_answers (h : four) (posLut ijLut : Lut) (x : Word) :
    AllEnds (Answers four) (edgeNeighborsProg posLut ijLut x) := by
  refine checkId_answers fun l => ?_
  unfold edgeNeighbors
  exact fromFaceIjSame_answers fun _ => fromFaceIjSame_answers fun _ => fromFaceIjSame_answers
    fun _ => fromFaceIjSame_answers fun _ => four_answers h _ _ _ _

end Ends

/-- TO_FACE_IJ and EDGE_NEIGHBORS have four results, every other command one (30_encoding.md R94). -/
theorem commandProg_answers (i : Instr) (s : State) (f : InFlight) :
    AllEnds (Answers (i = .toFaceIj ∨ i = .edgeNeighbors)) (commandProg i s f) := by
  cases i with
  | lutRead table => exact checkBelow_answers fun _ => one_answers (by simp) _
  | uvToSt => exact checkF64_answers fun _ => one_answers (by simp) _
  | stToIj =>
    rw [commandProg, stToIjProg]
    exact checkF64_answers fun _ => one_answers (by simp) _
  | fromFaceIj =>
    exact checkFace_answers fun _ => checkBelow_answers fun _ => checkBelow_answers fun _ =>
      one_answers (by simp) _
  | fromFaceUv =>
    exact checkFace_answers fun _ => checkF64_answers fun _ => checkF64_answers fun _ =>
      one_answers (by simp) _
  | fromLatLng =>
    refine checkF64_answers fun _ => checkF64_answers fun _ => .ask fun r => ?_
    exact askFaceUV_answers fun _ _ _ => one_answers (by simp) _
  | toFaceIj => exact checkId_answers fun _ => four_answers (by simp) _ _ _ _
  | isValid => exact one_answers (by simp) _
  | face | level | advance | advanceWrap | next | prev =>
    exact checkId_answers fun _ => one_answers (by simp) _
  | parent l => exact parentProg_answers (by simp) l _
  | edgeNeighbors => exact edgeNeighborsProg_answers (by simp) _ _ _
  | fromFaceIjWrap => exact fromFaceIjWrapProg_answers (by simp) _ _ _ _

/-- Settles O25: the program's result, however far it had come, is one of `Answers`. -/
theorem everyCommandCompletes : Obligations.EveryCommandCompletes := by
  intro i s f hf
  have hends := gate_answers f (commandProg_answers i s f)
  have hresult := allEnds_run (allEnds_resume hends f.responses) s.collabAnswer
  refine ⟨_, (exec_eq_complete i s).trans (complete_busy _ hf), finish_keepsRest s f _, ?_⟩
  rw [State.finish]
  generalize Prog.run _ _ = r at hresult ⊢
  cases r with
  | one r0 =>
    rw [if_neg hresult]
    exact .inl ⟨rfl, rfl, rfl, rfl, rfl, rfl⟩
  | four r0 r1 r2 r3 =>
    have hfour : i = .toFaceIj ∨ i = .edgeNeighbors := hresult
    rw [if_pos hfour]
    exact .inl ⟨rfl, rfl, rfl⟩
  | error e a => exact .inr ⟨hresult, rfl, rfl, rfl, rfl, rfl⟩

end Sys2Proof.Proofs.Completion

/-!
The two lookup tables (40_lut.md): the construction visits the quadrants below its four seeds, and the
entries of the built tables are read off the visited leaves, which makes the tables inverse (R126).
-/

namespace Sys2Proof.Proofs.LookupTables

open Sys2Proof Sys2Proof.Machine

/-! ### The quadrants the construction visits -/

/-- Where a descent along the curve stands: the four numbers `InitCell` and the two loops of R125 carry. -/
structure Quadrant where
  i : Nat
  j : Nat
  pos : Nat
  o : Nat

/-- The first call of `InitCell` for a seed orientation (40_lut.md R123). -/
def seedQuadrant (o : Nat) : Quadrant := ⟨0, 0, 0, o⟩

/-- The subquadrant at place `q` on the curve (40_lut.md R123). -/
def Quadrant.child (c : Quadrant) (q : Nat) : Quadrant where
  i := 2 * c.i + (posToIj c.o q >>> 1)
  j := 2 * c.j + (posToIj c.o q &&& 1)
  pos := 4 * c.pos + q
  o := c.o ^^^ posToOrientation q

/-- `d` lies `n` subdivisions below `c`. -/
inductive Descends : Nat → Quadrant → Quadrant → Prop where
  | refl (c : Quadrant) : Descends 0 c c
  | child {n q : Nat} {c d : Quadrant} (hq : q < 4) (h : Descends n (c.child q) d) :
      Descends (n + 1) c d

/-! ### The seed tables -/

/-- 40_lut.md R127. -/
theorem ijToPos_posToIj : ∀ o < 4, ∀ q < 4, ijToPos o (posToIj o q) = q := by decide

theorem posToIj_ijToPos : ∀ o < 4, ∀ r < 4, posToIj o (ijToPos o r) = r := by decide

theorem posToIj_lt : ∀ o < 4, ∀ q < 4, posToIj o q < 4 := by decide

theorem ijToPos_lt : ∀ o < 4, ∀ r < 4, ijToPos o r < 4 := by decide

theorem posToOrientation_lt : ∀ q < 4, posToOrientation q < 4 := by decide

/-- No two orientations turn alike in the quadrant `r` of the plane. -/
theorem turn_inj : ∀ r < 4, ∀ o < 4, ∀ o' < 4,
    o ^^^ posToOrientation (ijToPos o r) = o' ^^^ posToOrientation (ijToPos o' r) → o = o' := by
  decide

/-! ### One subdivision -/

section Child

variable {c d : Quadrant} {n q : Nat}

theorem child_i (c : Quadrant) (q : Nat) : (c.child q).i = 2 * c.i + posToIj c.o q / 2 := rfl

theorem child_j (c : Quadrant) (q : Nat) : (c.child q).j = 2 * c.j + posToIj c.o q % 2 := by
  rw [Quadrant.child, Nat.and_one_is_mod]

theorem child_pos (c : Quadrant) (q : Nat) : (c.child q).pos = 4 * c.pos + q := rfl

theorem child_o_lt (ho : c.o < 4) (hq : q < 4) : (c.child q).o < 4 :=
  Nat.xor_lt_two_pow (n := 2) ho (posToOrientation_lt q hq)

/-! ### The descent -/

theorem Descends.o_lt (h : Descends n c d) (ho : c.o < 4) : d.o < 4 := by
  induction h with
  | refl c => exact ho
  | child hq _ ih => exact ih (child_o_lt ho hq)

/-- The numbers of a quadrant begin with those of every quadrant above it. -/
theorem Descends.div (h : Descends n c d) (ho : c.o < 4) :
    d.i / 2 ^ n = c.i ∧ d.j / 2 ^ n = c.j ∧ d.pos / 4 ^ n = c.pos := by
  induction h with
  | refl c => simp
  | @child n q c d hq _ ih =>
    obtain ⟨hi, hj, hp⟩ := ih (child_o_lt ho hq)
    have hr := posToIj_lt c.o ho q hq
    rw [child_i] at hi
    rw [child_j] at hj
    rw [child_pos] at hp
    simp only [pow_succ, ← Nat.div_div_eq_div_mul, hi, hj, hp]
    omega

/-- Every curve position below a quadrant is visited. -/
theorem exists_descends_pos (n : Nat) (c : Quadrant) {p : Nat} (hp : p / 4 ^ n = c.pos) :
    ∃ d, Descends n c d ∧ d.pos = p := by
  induction n generalizing c with
  | zero => exact ⟨c, .refl c, by simpa using hp.symm⟩
  | succ n ih =>
    rw [pow_succ, ← Nat.div_div_eq_div_mul] at hp
    obtain ⟨d, hd, hpos⟩ := ih (c.child (p / 4 ^ n % 4)) (by rw [child_pos]; omega)
    exact ⟨d, .child (by omega) hd, hpos⟩

/-- Every place of the plane below a quadrant is visited. -/
theorem exists_descends_ij (n : Nat) {c : Quadrant} (ho : c.o < 4) {i j : Nat}
    (hi : i / 2 ^ n = c.i) (hj : j / 2 ^ n = c.j) : ∃ d, Descends n c d ∧ d.i = i ∧ d.j = j := by
  induction n generalizing c with
  | zero => exact ⟨c, .refl c, by simpa using hi.symm, by simpa using hj.symm⟩
  | succ n ih =>
    rw [pow_succ, ← Nat.div_div_eq_div_mul] at hi hj
    have hr : i / 2 ^ n % 2 * 2 + j / 2 ^ n % 2 < 4 := by omega
    have hq := ijToPos_lt c.o ho _ hr
    have hback := posToIj_ijToPos c.o ho _ hr
    obtain ⟨d, hd, hij⟩ := ih (child_o_lt ho hq) (by rw [child_i, hback]; omega)
      (by rw [child_j, hback]; omega)
    exact ⟨d, .child hq hd, hij⟩

/-- Along one stretch of the curve, or down to one place of the plane, no two orientations end alike. -/
theorem Descends.orientation_inj {c' d' : Quadrant} (h : Descends n c d) (h' : Descends n c' d')
    (ho : c.o < 4) (ho' : c'.o < 4) (hend : d.o = d'.o)
    (hsame : d.pos = d'.pos ∨ (d.i = d'.i ∧ d.j = d'.j)) : c.o = c'.o := by
  induction h generalizing c' with
  | refl c => cases h'; exact hend
  | @child n q c d hq h ih =>
    cases h' with
    | @child _ q' _ _ hq' h' =>
      have hturn : c.o ^^^ posToOrientation q = c'.o ^^^ posToOrientation q' :=
        ih h' (child_o_lt ho hq) (child_o_lt ho' hq') hend hsame
      obtain ⟨hi, hj, hp⟩ := h.div (child_o_lt ho hq)
      obtain ⟨hi', hj', hp'⟩ := h'.div (child_o_lt ho' hq')
      rw [child_i] at hi hi'
      rw [child_j] at hj hj'
      rw [child_pos] at hp hp'
      obtain hpos | ⟨hdi, hdj⟩ := hsame
      · rw [hpos] at hp
        obtain rfl : q = q' := by omega
        exact Nat.xor_left_injective hturn
      · rw [hdi] at hi
        rw [hdj] at hj
        have hr := posToIj_lt _ ho _ hq
        have hr' := posToIj_lt _ ho' _ hq'
        have hplace : posToIj c'.o q' = posToIj c.o q := by omega
        have hback' := ijToPos_posToIj _ ho' _ hq'
        rw [hplace] at hback'
        exact turn_inj _ hr _ ho _ ho' (by rwa [ijToPos_posToIj _ ho _ hq, hback'])

end Child

/-! ### The two loops of R125 -/

/-- The loop of `IjEntry` on the position of a quadrant follows the descent to it. -/
theorem Descends.ijEntryLoop_eq {c d : Quadrant} {n : Nat} (h : Descends n c d) (ho : c.o < 4) :
    ijEntryLoop d.pos n c.i c.j c.o = (((d.i <<< 4) ||| d.j) <<< 2) ||| d.o := by
  induction h with
  | refl c => rfl
  | @child n q c d hq h ih =>
    obtain ⟨-, -, hp⟩ := h.div (child_o_lt ho hq)
    have hdigit : (d.pos >>> (2 * n)) &&& 3 = q := by
      rw [Nat.shiftRight_eq_div_pow, pow_mul, show 2 ^ 2 = 4 from rfl,
        Nat.and_two_pow_sub_one_eq_mod _ 2]
      rw [child_pos] at hp
      omega
    rw [ijEntryLoop, hdigit]
    exact ih (child_o_lt ho hq)

/-- The loop of `PosEntry` on the place of a quadrant follows the descent to it. -/
theorem Descends.posEntryLoop_eq {c d : Quadrant} {n : Nat} (h : Descends n c d) (ho : c.o < 4) :
    posEntryLoop d.i d.j n c.pos c.o = (d.pos <<< 2) ||| d.o := by
  induction h with
  | refl c => rfl
  | @child n q c d hq h ih =>
    obtain ⟨hi, hj, -⟩ := h.div (child_o_lt ho hq)
    have hr := posToIj_lt c.o ho q hq
    have hquad : (((d.i >>> n) &&& 1) <<< 1) ||| ((d.j >>> n) &&& 1) = posToIj c.o q := by
      rw [child_i] at hi
      rw [child_j] at hj
      rw [Nat.and_one_is_mod, Nat.and_one_is_mod, ← Nat.shiftLeft_add_eq_or_of_lt (by omega),
        Nat.shiftRight_eq_div_pow, Nat.shiftRight_eq_div_pow, hi, hj, Nat.shiftLeft_eq]
      omega
    rw [posEntryLoop, hquad, ijToPos_posToIj c.o ho q hq]
    exact ih (child_o_lt ho hq)

/-! ### The keys and the entries -/

theorem pack_ij {i j o : Nat} (hj : j < 16) (ho : o < 4) :
    (((i <<< 4) ||| j) <<< 2) ||| o = (i * 16 + j) * 4 + o := by
  rw [← Nat.shiftLeft_add_eq_or_of_lt (show j < 2 ^ 4 from hj),
    ← Nat.shiftLeft_add_eq_or_of_lt (show o < 2 ^ 2 from ho), Nat.shiftLeft_eq, Nat.shiftLeft_eq]

theorem pack_pos {pos o : Nat} (ho : o < 4) : (pos <<< 2) ||| o = pos * 4 + o := by
  rw [← Nat.shiftLeft_add_eq_or_of_lt (show o < 2 ^ 2 from ho), Nat.shiftLeft_eq]

/-- A leaf of the construction for the seed orientation `o` (40_lut.md R123). -/
def Leaf (o : Nat) (d : Quadrant) : Prop := o < 4 ∧ Descends 4 (seedQuadrant o) d

namespace Leaf

variable {o : Nat} {d : Quadrant}

theorem bounds (h : Leaf o d) : o < 4 ∧ d.i < 16 ∧ d.j < 16 ∧ d.pos < 256 ∧ d.o < 4 := by
  obtain ⟨ho, hd⟩ := h
  obtain ⟨hi, hj, hp⟩ := hd.div ho
  have hdo : d.o < 4 := hd.o_lt ho
  simp only [seedQuadrant] at hi hj hp
  omega

/-- The entry of `IJ_LUT` at a leaf's key (40_lut.md R125). -/
theorem lutRead_ij (h : Leaf o d) :
    lutRead builtIjLut (d.pos * 4 + o) = (d.i * 16 + d.j) * 4 + d.o := by
  obtain ⟨ho, hi, hj, hp, hdo⟩ := h.bounds
  have hpos : (d.pos * 4 + o) >>> 2 = d.pos := by rw [Nat.shiftRight_eq_div_pow]; omega
  have horient : (d.pos * 4 + o) &&& 3 = o := by
    rw [Nat.and_two_pow_sub_one_eq_mod _ 2]; omega
  have hentry : ijEntry d.pos o = (d.i * 16 + d.j) * 4 + d.o :=
    (h.2.ijEntryLoop_eq ho).trans (pack_ij hj hdo)
  rw [lutRead_builtIjLut (by omega), hpos, horient, hentry, Nat.mod_eq_of_lt (by omega)]

/-- The entry of `POS_LUT` at a leaf's key (40_lut.md R125). -/
theorem lutRead_pos (h : Leaf o d) :
    lutRead builtPosLut ((d.i * 16 + d.j) * 4 + o) = d.pos * 4 + d.o := by
  obtain ⟨ho, hi, hj, hp, hdo⟩ := h.bounds
  have hki : ((d.i * 16 + d.j) * 4 + o) >>> 6 = d.i := by rw [Nat.shiftRight_eq_div_pow]; omega
  have hkj : (((d.i * 16 + d.j) * 4 + o) >>> 2) &&& 15 = d.j := by
    rw [Nat.shiftRight_eq_div_pow, Nat.and_two_pow_sub_one_eq_mod _ 4]; omega
  have horient : ((d.i * 16 + d.j) * 4 + o) &&& 3 = o := by
    rw [Nat.and_two_pow_sub_one_eq_mod _ 2]; omega
  have hentry : posEntry d.i d.j o = d.pos * 4 + d.o :=
    (h.2.posEntryLoop_eq ho).trans (pack_pos hdo)
  rw [lutRead_builtPosLut (by omega), hki, hkj, horient, hentry, Nat.mod_eq_of_lt (by omega)]

/-- Two leaves on one stretch of the curve, or at one place of the plane, that end in one orientation
have one seed. -/
theorem seed_inj {o' : Nat} {d' : Quadrant} (h : Leaf o d) (h' : Leaf o' d') (hend : d.o = d'.o)
    (hsame : d.pos = d'.pos ∨ (d.i = d'.i ∧ d.j = d'.j)) : o = o' :=
  h.2.orientation_inj h'.2 h.1 h'.1 hend hsame

end Leaf

/-- Every key of `IJ_LUT` is a leaf's. -/
theorem exists_leaf_ijKey {k : Nat} (hk : k < 1024) : ∃ o d, Leaf o d ∧ k = d.pos * 4 + o := by
  obtain ⟨d, hd, hpos⟩ := exists_descends_pos 4 (seedQuadrant (k % 4)) (p := k / 4)
    (by simp only [seedQuadrant]; omega)
  exact ⟨k % 4, d, ⟨by omega, hd⟩, by omega⟩

/-- Every key of `POS_LUT` is a leaf's. -/
theorem exists_leaf_posKey {k : Nat} (hk : k < 1024) :
    ∃ o d, Leaf o d ∧ k = (d.i * 16 + d.j) * 4 + o := by
  have ho : k % 4 < 4 := by omega
  obtain ⟨d, hd, hi, hj⟩ := exists_descends_ij 4 (c := seedQuadrant (k % 4)) ho (i := k / 64)
    (j := k / 4 % 16) (by simp only [seedQuadrant]; omega) (by simp only [seedQuadrant]; omega)
  exact ⟨k % 4, d, ⟨ho, hd⟩, by omega⟩

theorem builtIjLut_inverts_builtPosLut {k : Nat} (hk : k < 1024) :
    lutRead builtIjLut (lutRead builtPosLut k / 4 * 4 + k % 4) =
      k / 4 * 4 + lutRead builtPosLut k % 4 := by
  obtain ⟨o, d, h, rfl⟩ := exists_leaf_posKey hk
  obtain ⟨ho, -, -, -, hdo⟩ := h.bounds
  have hkey : (d.pos * 4 + d.o) / 4 * 4 + ((d.i * 16 + d.j) * 4 + o) % 4 = d.pos * 4 + o := by omega
  rw [h.lutRead_pos, hkey, h.lutRead_ij]
  omega

theorem builtPosLut_inverts_builtIjLut {k : Nat} (hk : k < 1024) :
    lutRead builtPosLut (lutRead builtIjLut k / 4 * 4 + k % 4) =
      k / 4 * 4 + lutRead builtIjLut k % 4 := by
  obtain ⟨o, d, h, rfl⟩ := exists_leaf_ijKey hk
  obtain ⟨ho, -, -, -, hdo⟩ := h.bounds
  have hkey : ((d.i * 16 + d.j) * 4 + d.o) / 4 * 4 + (d.pos * 4 + o) % 4 =
      (d.i * 16 + d.j) * 4 + o := by omega
  rw [h.lutRead_ij, hkey, h.lutRead_pos]
  omega

/-- Equal entries give equal seeds, and the other table then gives back the rest of the key. -/
theorem builtPosLut_inj {k k' : Nat} (hk : k < 1024) (hk' : k' < 1024)
    (heq : lutRead builtPosLut k = lutRead builtPosLut k') : k = k' := by
  have hinv := builtIjLut_inverts_builtPosLut hk
  have hinv' := builtIjLut_inverts_builtPosLut hk'
  have hseed : k % 4 = k' % 4 := by
    obtain ⟨o, d, h, rfl⟩ := exists_leaf_posKey hk
    obtain ⟨o', d', h', rfl⟩ := exists_leaf_posKey hk'
    obtain ⟨-, -, -, -, hdo⟩ := h.bounds
    obtain ⟨-, -, -, -, hdo'⟩ := h'.bounds
    rw [h.lutRead_pos, h'.lutRead_pos] at heq
    have hsame := h.seed_inj h' (by omega) (.inl (by omega))
    omega
  rw [heq, hseed] at hinv
  omega

theorem builtIjLut_inj {k k' : Nat} (hk : k < 1024) (hk' : k' < 1024)
    (heq : lutRead builtIjLut k = lutRead builtIjLut k') : k = k' := by
  have hinv := builtPosLut_inverts_builtIjLut hk
  have hinv' := builtPosLut_inverts_builtIjLut hk'
  have hseed : k % 4 = k' % 4 := by
    obtain ⟨o, d, h, rfl⟩ := exists_leaf_ijKey hk
    obtain ⟨o', d', h', rfl⟩ := exists_leaf_ijKey hk'
    obtain ⟨-, -, hj, -, hdo⟩ := h.bounds
    obtain ⟨-, -, hj', -, hdo'⟩ := h'.bounds
    rw [h.lutRead_ij, h'.lutRead_ij] at heq
    have hsame := h.seed_inj h' (by omega) (.inr (by omega))
    omega
  rw [heq, hseed] at hinv
  omega

/-- Settles O10: one leaf holds the entries of both tables, and a leaf's last orientation tells its seed. -/
theorem tablesAreInverse : Obligations.TablesAreInverse :=
  ⟨fun _ hk => ⟨builtIjLut_inverts_builtPosLut hk, builtPosLut_inverts_builtIjLut hk⟩,
    fun _ hk _ hk' => builtPosLut_inj hk hk', fun _ hk _ hk' => builtIjLut_inj hk hk'⟩

end Sys2Proof.Proofs.LookupTables

/-!
What `BuildLUT` writes (40_lut.md R123): a pair of entries of the built tables for each leaf, so the
READY step leaves what it writes; and what LUT_READ answers of the tables (R129).
-/

namespace Sys2Proof.Proofs.LookupTables

open Sys2Proof Sys2Proof.Machine

/-! ### The construction -/

/-- The pair of writes of a leaf (40_lut.md R123). -/
def Quadrant.leafWrite (d : Quadrant) (seed : Nat) : LeafWrite :=
  ⟨(((d.i <<< 4) ||| d.j) <<< 2) ||| seed, (d.pos <<< 2) ||| d.o, (d.pos <<< 2) ||| seed,
    (((d.i <<< 4) ||| d.j) <<< 2) ||| d.o⟩

/-- `InitCell` writes for the quadrants it descends to. -/
theorem mem_initCell {n seed : Nat} {c : Quadrant} {w : LeafWrite} :
    w ∈ initCell n c.i c.j seed c.pos c.o ↔ ∃ d, Descends n c d ∧ w = d.leafWrite seed := by
  induction n generalizing c with
  | zero =>
    constructor
    · intro h
      exact ⟨c, .refl c, List.mem_singleton.mp h⟩
    · rintro ⟨d, ⟨⟩, rfl⟩
      exact List.mem_singleton.mpr rfl
  | succ n ih =>
    rw [initCell, List.mem_flatMap]
    constructor
    · rintro ⟨q, hq, hw⟩
      obtain ⟨d, hd, rfl⟩ := ih (c := c.child q) |>.mp hw
      exact ⟨d, .child (List.mem_range (n := 4).mp hq) hd, rfl⟩
    · rintro ⟨d, hd, rfl⟩
      cases hd with
      | @child _ q _ _ hq hd =>
        exact ⟨q, List.mem_range (n := 4).mpr hq, ih (c := c.child q) |>.mpr ⟨d, hd, rfl⟩⟩

theorem initCell_length (n i j seed pos o : Nat) : (initCell n i j seed pos o).length = 4 ^ n := by
  induction n generalizing i j pos o with
  | zero => rfl
  | succ n ih => simp [initCell, ih]; omega

theorem buildWrites_length : buildWrites.length = 1024 := by
  simp [buildWrites, initCell_length]

/-- `BuildLUT` makes one pair of writes for each leaf. -/
theorem mem_buildWrites {w : LeafWrite} : w ∈ buildWrites ↔ ∃ o d, Leaf o d ∧ w = d.leafWrite o := by
  have hmem : ∀ o, w ∈ initCell 4 0 0 o 0 o ↔
      ∃ d, Descends 4 (seedQuadrant o) d ∧ w = d.leafWrite o := fun o =>
    mem_initCell (c := seedQuadrant o)
  rw [buildWrites, List.mem_flatMap]
  constructor
  · rintro ⟨o, ho, hw⟩
    obtain ⟨d, hd, rfl⟩ := (hmem o).mp hw
    exact ⟨o, d, ⟨List.mem_range (n := 4).mp ho, hd⟩, rfl⟩
  · rintro ⟨o, d, ⟨ho, hd⟩, rfl⟩
    exact ⟨o, List.mem_range (n := 4).mpr ho, (hmem o).mpr ⟨d, hd, rfl⟩⟩

theorem Leaf.leafWrite_eq {o : Nat} {d : Quadrant} (h : Leaf o d) :
    d.leafWrite o = ⟨(d.i * 16 + d.j) * 4 + o, d.pos * 4 + d.o, d.pos * 4 + o,
      (d.i * 16 + d.j) * 4 + d.o⟩ := by
  obtain ⟨ho, -, hj, -, hdo⟩ := h.bounds
  rw [Quadrant.leafWrite, pack_ij hj ho, pack_ij hj hdo, pack_pos ho, pack_pos hdo]

theorem mem_posKeys {k : Nat} (hk : k < 1024) : k ∈ buildWrites.map LeafWrite.posKey := by
  obtain ⟨o, d, h, rfl⟩ := exists_leaf_posKey hk
  exact List.mem_map.mpr ⟨_, mem_buildWrites.mpr ⟨o, d, h, rfl⟩, by rw [h.leafWrite_eq]⟩

theorem mem_ijKeys {k : Nat} (hk : k < 1024) : k ∈ buildWrites.map LeafWrite.ijKey := by
  obtain ⟨o, d, h, rfl⟩ := exists_leaf_ijKey hk
  exact List.mem_map.mpr ⟨_, mem_buildWrites.mpr ⟨o, d, h, rfl⟩, by rw [h.leafWrite_eq]⟩

/-- A list no longer than `n` that has every number below `n` has each once. -/
theorem perm_range_of_mem {l : List Nat} {n : Nat} (hl : l.length = n) (h : ∀ k < n, k ∈ l) :
    l.Perm (List.range n) :=
  have hsub : (List.range n).Subperm l :=
    List.nodup_range.subperm fun k hk => h k (List.mem_range.mp hk)
  (hsub.perm_of_length_le (by simp [hl])).symm

/-- Settles O11: there are 1024 pairs of writes, and no key is left out. -/
theorem constructionWritesEachEntryOnce : Obligations.ConstructionWritesEachEntryOnce :=
  ⟨perm_range_of_mem (by rw [List.length_map, buildWrites_length]) fun _ => mem_posKeys,
    perm_range_of_mem (by rw [List.length_map, buildWrites_length]) fun _ => mem_ijKeys⟩

/-! ### The tables initialisation leaves -/

theorem lutWrite_lutRead_same {t u : Lut} (hlen : t.length = u.length) (k : Nat) :
    (lutWrite t k (lutRead u k))[k]? = u[k]? := by
  by_cases hk : k < u.length <;> simp [lutWrite, lutRead, hlen, hk]

/-- Writes that are all entries of the table `u`, and reach every key, leave `u`. -/
theorem foldl_lutWrite_eq {ws : List LeafWrite} {key value : LeafWrite → Nat} {u : Lut}
    (hvalue : ∀ w ∈ ws, value w = lutRead u (key w)) {t : Lut} (hlen : t.length = u.length)
    (hkey : ∀ k, t[k]? ≠ u[k]? → k ∈ ws.map key) :
    ws.foldl (fun t w => lutWrite t (key w) (value w)) t = u := by
  induction ws generalizing t with
  | nil => exact List.ext_getElem? fun k => by_contra fun h => nomatch hkey k h
  | cons w ws ih =>
    have hlen' : (lutWrite t (key w) (value w)).length = u.length := by simpa [lutWrite] using hlen
    rw [List.foldl_cons]
    refine ih (fun w' hw' => hvalue w' (.tail _ hw')) hlen' fun k hk => ?_
    have hne : k ≠ key w := by
      rintro rfl
      exact hk (by rw [hvalue w (.head _), lutWrite_lutRead_same hlen])
    have hother : (lutWrite t (key w) (value w))[k]? = t[k]? := List.getElem?_set_ne hne.symm
    exact (List.mem_cons.mp (hkey k (hother ▸ hk))).resolve_left hne

theorem lut_key_lt {t u : Lut} (ht : lutWf t) (hu : lutWf u) {k : Nat} (h : t[k]? ≠ u[k]?) :
    k < 1024 := by
  by_contra hk
  have hlen : t.length = 1024 ∧ u.length = 1024 := ⟨ht, hu⟩
  exact h (by rw [List.getElem?_eq_none (by omega), List.getElem?_eq_none (by omega)])

theorem runBuildPos_eq {t : Lut} (ht : lutWf t) : runBuildPos t = builtPosLut := by
  refine foldl_lutWrite_eq (fun w hw => ?_) (ht.trans builtPosLut_wf.symm)
    fun k hk => mem_posKeys (lut_key_lt ht builtPosLut_wf hk)
  obtain ⟨o, d, h, rfl⟩ := mem_buildWrites.mp hw
  rw [h.leafWrite_eq, h.lutRead_pos]

theorem runBuildIj_eq {t : Lut} (ht : lutWf t) : runBuildIj t = builtIjLut := by
  refine foldl_lutWrite_eq (fun w hw => ?_) (ht.trans builtIjLut_wf.symm)
    fun k hk => mem_ijKeys (lut_key_lt ht builtIjLut_wf hk)
  obtain ⟨o, d, h, rfl⟩ := mem_buildWrites.mp hw
  rw [h.leafWrite_eq, h.lutRead_ij]

theorem step_initDone {s : State} {rest : List Event} (h : s.agenda = .initDone :: rest) :
    step s = .next { s with agenda := rest }.initDone := by
  simp only [step, h, takeEvent]

/-- Settles O8: whatever the tables held, the construction leaves the built ones. -/
theorem initDoneRunsTheConstruction : Obligations.InitDoneRunsTheConstruction := by
  intro s rest ha hb hm hp hi
  rw [step_initDone ha, initDone_building { s with agenda := rest } hb hm, State.buildTables,
    runBuildPos_eq hp, runBuildIj_eq hi]

/-! ### LUT_READ -/

theorem checkBelow_above {bound : Nat} {x : Word} (h : bound ≤ x.toNat) (n : ErrOperand)
    (k : Nat → Prog) : checkBelow bound x n k = raise .invalidOperand n := if_pos h

theorem checkBelow_below {bound : Nat} {x : Word} (h : x.toNat < bound) (n : ErrOperand)
    (k : Nat → Prog) : checkBelow bound x n k = k x.toNat := if_neg h.not_ge

theorem exec_lutRead {s : State} {f : InFlight} (h : Runs s f) (tb : Table) :
    exec (.lutRead tb) s = .next (s.finish f (lutReadProg (s.table tb) f.op0)) :=
  complete_runs _ h

theorem exec_lutRead_above {s : State} {f : InFlight} (h : Runs s f) (hk : Config.lutSize ≤ f.op0.toNat)
    (tb : Table) :
    ∃ t, exec (.lutRead tb) s = .next t ∧ Fails s t .invalidOperand .op0 [] := by
  rw [exec_lutRead h, lutReadProg, checkBelow_above hk]
  exact ⟨_, rfl, finish_raise s f _ _⟩

theorem exec_lutRead_below {s : State} {f : InFlight} (h : Runs s f) (hk : f.op0.toNat < Config.lutSize)
    (tb : Table) :
    ∃ t, exec (.lutRead tb) s = .next t ∧
      Succeeds1 s t (((s.table tb).getD f.op0.toNat 0).setWidth 64) [] := by
  rw [exec_lutRead h, lutReadProg, checkBelow_below hk, lutRead, BitVec.ofNat_toNat]
  exact ⟨_, rfl, finish_return1 s f _⟩

/-- Settles O30: the check of the index. -/
theorem lutReadAnswersTheEntry : Obligations.LutReadAnswersTheEntry := fun _ _ h =>
  ⟨exec_lutRead_above h, fun hk => ⟨exec_lutRead_below h hk .pos, exec_lutRead_below h hk .ij⟩⟩

end Sys2Proof.Proofs.LookupTables

/-!
Two facts about binary64 that the projection turns on: the sign of a number, by which no operation of
`uv_to_st` answers a NaN, and the values that are their own rounding (41_projection.md R140, R146).
-/

namespace Sys2Proof.Proofs.Binary64

open Sys2Proof Sys2Proof.Machine

/-! ### The values that are not finite -/

theorem f64IsNaN_iff {w : Word} : f64IsNaN w = true ↔ f64Value w = .nan := by
  simp only [f64IsNaN, Bool.and_eq_true, decide_eq_true_eq, f64Value]
  split
  case isTrue he =>
    split
    case isTrue hf => simp [hf]
    case isFalse hf => simp [he, hf]
  case isFalse he =>
    split <;> simp [he]

/-- An infinity has one encoding of each sign. -/
theorem eq_f64Inf {w : Word} {s : Bool} (h : f64Value w = .inf s) : w = f64Inf s := by
  have hw : f64Exponent w = 2047 ∧ f64Fraction w = 0 ∧ f64Sign w = s := by
    unfold f64Value at h
    split at h
    · split at h <;> cases h
      exact ⟨‹_›, ‹_›, rfl⟩
    · split at h <;> cases h
  rw [f64Exponent_eq, f64Fraction_eq, f64Sign_eq] at hw
  obtain ⟨he, hf, rfl⟩ := hw
  apply BitVec.eq_of_toNat_eq
  rw [f64Inf, f64Signed_toNat _ (by omega)]
  simp only [decide_eq_true_eq]
  split <;> omega

theorem f64Neg_f64Inf (s : Bool) : f64Neg (f64Inf s) = f64Inf !s := by cases s <;> decide

theorem f64Value_f64Zero (s : Bool) : f64Value (f64Zero s) = .fin s 0 (-1074) := by
  cases s <;> decide

theorem f64Add_f64Inf {a : Word} {s : Bool} {m : Nat} {e : Int} (ha : f64Value a = .fin s m e)
    (t : Bool) : f64Add a (f64Inf t) = f64Inf t := by
  rw [f64Add, ha, f64Value_f64Inf]

theorem f64Mul_f64Inf {a : Word} {s : Bool} {m : Nat} {e : Int} (ha : f64Value a = .fin s m e)
    (hm : m ≠ 0) (t : Bool) : f64Mul a (f64Inf t) = f64Inf (s ^^ t) := by
  rw [f64Mul, ha, f64Value_f64Inf]
  exact if_neg hm

/-! ### The sign of a number -/

/-- A number of the sign `s`, where a zero has both. A NaN has none. -/
def HasSign (s : Bool) : FVal → Prop
  | .nan => False
  | .inf t => t = s
  | .fin t m _ => t = s ∨ m = 0

theorem HasSign.not_nan {s : Bool} {w : Word} (h : HasSign s (f64Value w)) : f64IsNaN w = false :=
  Bool.eq_false_iff.mpr fun hnan => by rwa [f64IsNaN_iff.mp hnan] at h

theorem HasSign.cases {s : Bool} {w : Word} (h : HasSign s (f64Value w)) :
    w = f64Inf s ∨ ∃ t m e, f64Value w = .fin t m e ∧ (t = s ∨ m = 0) := by
  cases hw : f64Value w with
  | nan => exact (hw ▸ h : HasSign s .nan).elim
  | inf t => exact .inl ((hw ▸ h : HasSign s (.inf t)) ▸ eq_f64Inf hw)
  | fin t m e => exact .inr ⟨t, m, e, rfl, (hw ▸ h : HasSign s (.fin t m e))⟩

theorem hasSign_f64Inf (s : Bool) : HasSign s (f64Value (f64Inf s)) := by
  rw [f64Value_f64Inf]
  rfl

theorem hasSign_f64Zero (s t : Bool) : HasSign s (f64Value (f64Zero t)) := by
  rw [f64Value_f64Zero]
  exact .inr rfl

theorem hasSign_f64Round {s t : Bool} {m : Nat} (h : t = s ∨ m = 0) (e : Int) :
    HasSign s (f64Value (f64Round t m e)) := by
  obtain rfl | hm := eq_or_ne m 0
  · rw [f64Round, if_pos rfl]
    exact hasSign_f64Zero s t
  · obtain rfl := h.resolve_right hm
    rcases lt_or_ge |finValue t m e| (2 ^ 1024 - 2 ^ 970) with hlt | hge
    · obtain ⟨t', m', e', hfin⟩ := f64Round_finite t hlt
      obtain ⟨-, -, -, -, rfl, -⟩ := f64Round_fin hfin
      rw [hfin]
      exact .inl rfl
    · rw [f64Round_overflow t hge, f64Value_f64Inf]
      rfl

theorem hasSign_f64Neg {s : Bool} {w : Word} (h : HasSign s (f64Value w)) :
    HasSign (!s) (f64Value (f64Neg w)) := by
  obtain rfl | ⟨t, m, e, hw, ht⟩ := h.cases
  · rw [f64Neg_f64Inf]
    exact hasSign_f64Inf _
  · rw [f64Value_f64Neg hw]
    exact ht.imp_left (congrArg _)

/-- A product with a positive number has the other factor's sign. -/
theorem hasSign_f64Mul {a b : Word} {s : Bool} {m : Nat} {e : Int}
    (ha : f64Value a = .fin false m e) (hm : m ≠ 0) (hb : HasSign s (f64Value b)) :
    HasSign s (f64Value (f64Mul a b)) := by
  obtain rfl | ⟨t, n, f, hv, ht⟩ := hb.cases
  · rw [f64Mul_f64Inf ha hm, Bool.false_xor]
    exact hasSign_f64Inf s
  · rw [f64Mul_fin ha hv, Bool.false_xor]
    exact hasSign_f64Round (ht.imp_right fun hn => by rw [hn, mul_zero]) _

theorem alignedInt_neg_iff {s : Bool} {m : Nat} {e base : Int} :
    alignedInt s m e base < 0 ↔ s = true ∧ m ≠ 0 := by
  have hu : (0 : Int) < 2 ^ (e - base).toNat := by positivity
  cases s <;> simp [alignedInt, signedNat, mul_neg_iff, hu, hu.not_gt, Nat.pos_iff_ne_zero]

theorem alignedInt_nonneg {s : Bool} {m : Nat} (h : s = false ∨ m = 0) (e base : Int) :
    0 ≤ alignedInt s m e base := by
  rw [← not_lt, alignedInt_neg_iff]
  rcases h with rfl | rfl <;> simp

/-- A sum of numbers that are not negative is one. -/
theorem hasSign_f64Add {a b : Word} {m : Nat} {e : Int} (ha : f64Value a = .fin false m e)
    (hb : HasSign false (f64Value b)) : HasSign false (f64Value (f64Add a b)) := by
  obtain rfl | ⟨t, n, f, hv, ht⟩ := hb.cases
  · rw [f64Add_f64Inf ha]
    exact hasSign_f64Inf false
  · have hnonneg := add_nonneg (alignedInt_nonneg (.inl rfl : false = false ∨ m = 0) e (min e f))
      (alignedInt_nonneg ht f (min e f))
    simp only [f64Add_fin ha hv, f64AddFin]
    split
    · exact hasSign_f64Zero false _
    · exact hasSign_f64Round (.inl (decide_eq_false hnonneg.not_gt)) _

/-- A number added to a finite one gives a number. -/
theorem exists_hasSign_f64Add {a b : Word} {s t : Bool} {m : Nat} {e : Int}
    (ha : f64Value a = .fin s m e) (hb : HasSign t (f64Value b)) :
    ∃ r, HasSign r (f64Value (f64Add a b)) := by
  obtain rfl | ⟨t', n, f, hv, -⟩ := hb.cases
  · rw [f64Add_f64Inf ha]
    exact ⟨t, hasSign_f64Inf t⟩
  · simp only [f64Add_fin ha hv, f64AddFin]
    split
    · exact ⟨false, hasSign_f64Zero false _⟩
    · exact ⟨_, hasSign_f64Round (.inl rfl) _⟩

theorem hasSign_f64Sqrt {a : Word} (ha : HasSign false (f64Value a)) :
    HasSign false (f64Value (f64Sqrt a)) := by
  obtain rfl | ⟨t, m, e, hv, ht⟩ := ha.cases
  · rw [f64Sqrt, f64Value_f64Inf]
    exact hasSign_f64Inf false
  · obtain rfl | rfl := ht
    · obtain ⟨m', e', hroot, -⟩ := squareRootIsNearest.2 a m e hv
      rw [hroot]
      exact .inl rfl
    · rw [f64Sqrt, hv]
      exact hasSign_f64Zero false t

/-- `a >= 0` reads the sign of a number; `-0.0` passes it as a zero. -/
theorem hasSign_not_f64NonNeg {u : Word} (hu : f64IsNaN u = false) :
    HasSign (!f64NonNeg u) (f64Value u) := by
  rw [f64NonNeg, hu, f64Lt, f64Value_f64Zero]
  cases hv : f64Value u with
  | nan => rw [f64IsNaN_iff.mpr hv] at hu; cases hu
  | inf t => simp [HasSign]
  | fin t m e =>
    have hzero : alignedInt false 0 (-1074) (min e (-1074)) = 0 := zero_mul _
    simp only [HasSign, hzero, alignedInt_neg_iff]
    cases t <;> simp [em']

/-! ### Exact roundings and the floor -/

/-- A magnitude of 53 bits, not below the last place of the subnormals, is its own rounding. -/
theorem RoundsTo.exact {q e : Int} {n m : Nat} (h : RoundsTo q n (m * 2 ^ e)) (hm : m < 2 ^ 53)
    (he : -1074 ≤ e) : (n : ℝ) * 2 ^ q = m * 2 ^ e := by
  have hqe : q ≤ e := by
    by_contra hlt
    have hu : (0 : ℝ) < 2 ^ e := zpow_pos two_pos _
    have hle : (2 : ℝ) ^ (e + 1) ≤ 2 ^ q := zpow_le_zpow_right₀ one_le_two (by omega)
    have hm' : (m : ℝ) < 2 ^ 53 := by exact_mod_cast hm
    rw [zpow_add_one₀ two_ne_zero] at hle
    linarith [h.normal (by omega), mul_lt_mul_of_pos_right hm' hu]
  have hcount := h.le_count (m * 2 ^ (e - q).toNat : Nat)
  push_cast at hcount
  rw [mul_assoc, two_pow_toNat_sub_mul hqe, sub_self, abs_zero] at hcount
  exact sub_eq_zero.mp (abs_nonpos_iff.mp hcount)

/-- Values of one sign are equal when their magnitudes are. -/
theorem finValue_eq_iff {s : Bool} {m m' : Nat} {e e' : Int} :
    finValue s m e = finValue s m' e' ↔ (m : ℝ) * 2 ^ e = m' * 2 ^ e' := by
  rw [← Bool.false_xor s, finValue_xor_inj, ← Rat.cast_inj (α := ℝ), cast_finValue_false,
    cast_finValue_false]

/-- A value of 53 bits in the range of binary64 is its own rounding. -/
theorem f64Round_exact {s : Bool} {m m' : Nat} {e e' : Int}
    (hval : finValue s m e = finValue s m' e') (hm : m' < 2 ^ 53) (he : -1074 ≤ e')
    (hlt : |finValue s m e| < 2 ^ 1024 - 2 ^ 970) :
    ∃ m1 e1, f64Value (f64Round s m e) = .fin s m1 e1 ∧ finValue s m1 e1 = finValue s m e := by
  obtain ⟨s1, m1, e1, hfin⟩ := f64Round_finite s hlt
  obtain ⟨q, n, hr, -, rfl, hround⟩ := f64Round_fin hfin
  rw [finValue_eq_iff.mp hval] at hr
  exact ⟨m1, e1, hfin, by rw [hround, hval, finValue_eq_iff, hr.exact hm he]⟩

theorem two_pow_le_overflow_threshold : (2 : ℚ) ^ 30 ≤ 2 ^ 1024 - 2 ^ 970 := by
  have h30 : (2 : ℚ) ^ 30 ≤ 2 ^ 970 := pow_le_pow_right₀ one_le_two (by omega)
  have h1024 : (2 : ℚ) ^ 1024 = 2 ^ 54 * 2 ^ 970 := by rw [← pow_add]
  rw [h1024]
  generalize (2 : ℚ) ^ 970 = u at h30 ⊢
  linarith

theorem floorFin_eq (s : Bool) (m : Nat) (e : Int) : floorFin s m e = ⌊finValue s m e⌋ := by
  rw [floorFin, finValue]
  split
  case isTrue he =>
    obtain ⟨k, rfl⟩ := Int.eq_ofNat_of_zero_le he
    exact_mod_cast (Int.floor_intCast (R := ℚ) (signedNat s m * 2 ^ k)).symm
  case isFalse he =>
    obtain ⟨k, hk⟩ := Int.eq_ofNat_of_zero_le (a := -e) (by omega)
    obtain rfl : e = -(k : Int) := by omega
    have hdiv := Rat.floor_intCast_div_natCast (signedNat s m) (2 ^ k)
    rw [hk, Int.toNat_natCast, zpow_neg, zpow_natCast, ← div_eq_mul_inv]
    exact_mod_cast hdiv.symm

end Sys2Proof.Proofs.Binary64

/-!
The projection functions and their commands (41_projection.md): `uv_to_st` of a number is a number (R141),
`st_to_ij` is the clamped floor of an exact product (R142), and both check their operand (R146).
-/

namespace Sys2Proof.Proofs.Projection

open Sys2Proof Sys2Proof.Machine Sys2Proof.Proofs.Binary64 Sys2Proof.Proofs.Exchanges

/-! ### UV_TO_ST -/

theorem f64Value_f64One : f64Value f64One = .fin false (2 ^ 52) (-52) := by decide

theorem f64Value_f64Half : f64Value f64Half = .fin false (2 ^ 52) (-53) := by decide

theorem f64Value_f64Three : f64Value f64Three = .fin false (3 * 2 ^ 51) (-51) := by decide

theorem uvToSt_nonneg {u : Word} (h : f64NonNeg u = true) :
    uvToSt u = f64Mul f64Half (f64Sqrt (f64Add f64One (f64Mul f64Three u))) := if_pos h

theorem uvToSt_neg {u : Word} (h : f64NonNeg u = false) :
    uvToSt u = f64Sub f64One (f64Mul f64Half (f64Sqrt (f64Sub f64One (f64Mul f64Three u)))) :=
  if_neg (by simp [h])

/-- The part both branches of R141 share. -/
theorem hasSign_halfRoot {x : Word} (hx : HasSign false (f64Value x)) :
    HasSign false (f64Value (f64Mul f64Half (f64Sqrt (f64Add f64One x)))) :=
  hasSign_f64Mul f64Value_f64Half (by decide) (hasSign_f64Sqrt (hasSign_f64Add f64Value_f64One hx))

/-- Settles O32: both branches take the root of a number that is not negative, and `1` is finite, so its sum
with a number is one. -/
theorem uvToStIsNeverNaN : Obligations.UvToStIsNeverNaN := by
  intro u hu
  have hsign := hasSign_f64Mul f64Value_f64Three (by decide) (hasSign_not_f64NonNeg hu)
  cases hn : f64NonNeg u with
  | true =>
    rw [hn] at hsign
    rw [uvToSt_nonneg hn]
    exact (hasSign_halfRoot hsign).not_nan
  | false =>
    rw [hn] at hsign
    rw [uvToSt_neg hn, f64Sub, f64Sub]
    have hroot := hasSign_halfRoot (hasSign_f64Neg hsign)
    obtain ⟨s, hs⟩ := exists_hasSign_f64Add f64Value_f64One (hasSign_f64Neg hroot)
    exact hs.not_nan

/-! ### ST_TO_IJ -/

theorem f64Value_f64Two30 : f64Value f64Two30 = .fin false (2 ^ 52) (-22) := by decide

theorem two_pow_mul_finValue (s : Bool) (m : Nat) (e : Int) :
    2 ^ 30 * finValue s m e = finValue s m (e + 30) := by
  rw [finValue, finValue, zpow_add₀ two_ne_zero, zpow_ofNat]
  ring

theorem floorClamp_fin (s : Bool) (m : Nat) (e : Int) :
    (floorClamp (.fin s m e) : ℤ) = intClamp ⌊finValue s m e⌋ 0 (2 ^ 30 - 1) := by
  rw [floorClamp, floorFin_eq, Config.maxSize, Int.toNat_of_nonneg]
  · rfl
  · simp only [intClamp]
    split <;> omega

/-- An infinity saturates as every value of its sign does from `2^30` on. -/
theorem floorClamp_inf {s : Bool} {m : Nat} {e : Int} (h : 2 ^ 30 ≤ |finValue s m e|) :
    (floorClamp (.inf s) : ℤ) = intClamp ⌊finValue s m e⌋ 0 (2 ^ 30 - 1) := by
  rw [abs_finValue] at h
  cases s with
  | false =>
    have hmag : finValue false m e = m * 2 ^ e := by simp [finValue, signedNat]
    have hfloor : 2 ^ 30 ≤ ⌊finValue false m e⌋ := Int.le_floor.mpr (by rw [hmag]; exact_mod_cast h)
    rw [intClamp, if_neg (by omega), if_pos (by omega)]
    rfl
  | true =>
    have hpos : (0 : ℚ) < m * 2 ^ e := (by positivity : (0 : ℚ) < 2 ^ 30).trans_le h
    have hfloor : ⌊finValue true m e⌋ < 0 :=
      Int.floor_lt.mpr (by simpa [finValue, signedNat] using hpos)
    rw [intClamp, if_pos hfloor]
    rfl

/-- R142: the product with `2^30` is exact, unless it overflows. -/
theorem f64Value_two30Mul {w : Word} {s : Bool} {m : Nat} {e : Int} (hw : f64Value w = .fin s m e) :
    (∃ m' e', f64Value (f64Mul f64Two30 w) = .fin s m' e' ∧
      finValue s m' e' = finValue s m (e + 30)) ∨
    (f64Value (f64Mul f64Two30 w) = .inf s ∧ 2 ^ 30 ≤ |finValue s m (e + 30)|) := by
  obtain ⟨hm, he, -⟩ := fin_bounds hw
  have hprod : finValue s (2 ^ 52 * m) (-22 + e) = finValue s m (e + 30) := by
    rw [← two_pow_mul_finValue, ← Bool.false_xor s, finValue_mul, Bool.false_xor]
    norm_num [finValue, signedNat]
  rw [f64Mul_fin f64Value_f64Two30 hw, Bool.false_xor, ← hprod]
  rcases lt_or_ge |finValue s (2 ^ 52 * m) (-22 + e)| (2 ^ 1024 - 2 ^ 970) with hlt | hge
  · exact .inl (f64Round_exact hprod hm (by omega) hlt)
  · exact .inr ⟨by rw [f64Round_overflow s hge, f64Value_f64Inf],
      two_pow_le_overflow_threshold.trans hge⟩

theorem stToIj_inf (s : Bool) : stToIj (f64Inf s) = floorClamp (.inf s) := by
  rw [stToIj, f64Mul_f64Inf f64Value_f64Two30 (by decide), f64Value_f64Inf, Bool.false_xor]

/-- Settles O34: the product is exact or beyond `2^30`, where its infinity saturates as the clamp does. -/
theorem stToIjIsTheClampedFloor : Obligations.StToIjIsTheClampedFloor := by
  refine fun w => ⟨fun s m e hw => ?_, fun hw => ?_, fun hw => ?_⟩
  · rw [two_pow_mul_finValue]
    obtain ⟨m', e', hfin, hval⟩ | ⟨hinf, hge⟩ := f64Value_two30Mul hw
    · rw [stToIj, hfin, floorClamp_fin, hval]
    · rw [stToIj, hinf, floorClamp_inf hge]
  · rw [eq_f64Inf hw, stToIj_inf]; rfl
  · rw [eq_f64Inf hw, stToIj_inf]; rfl

/-! ### A command that answers a function `g` of one binary64 operand -/

section
variable {s : State} {f : InFlight} (h : Runs s f) (g : Word → Word)
include h

theorem complete_checkF64_nan (hnan : f64IsNaN f.op0 = true) :
    ∃ t, complete (fun f => checkF64 f.op0 .op0 fun x => return1 (g x)) s = .next t ∧
      Fails s t .invalidOperand .op0 [] := by
  rw [complete_runs _ h, checkF64_nan hnan]
  exact ⟨_, rfl, finish_raise s f _ _⟩

theorem complete_checkF64_value (hnum : f64IsNaN f.op0 = false) :
    ∃ t, complete (fun f => checkF64 f.op0 .op0 fun x => return1 (g x)) s = .next t ∧
      Succeeds1 s t (g f.op0) [] := by
  rw [complete_runs _ h, checkF64_value hnum]
  exact ⟨_, rfl, finish_return1 s f _⟩

end

/-! ### The two commands -/

/-- Settles O31: the operand check, and the branch of R141. -/
theorem uvToStProjects : Obligations.UvToStProjects := by
  intro s f h
  refine ⟨complete_checkF64_nan h uvToSt, fun hnum hsign => ?_, fun hnum hsign => ?_⟩
  · rw [← uvToSt_nonneg hsign]
    exact complete_checkF64_value h uvToSt hnum
  · rw [← uvToSt_neg hsign]
    exact complete_checkF64_value h uvToSt hnum

/-- Settles O33: the operand check. -/
theorem stToIjQuantises : Obligations.StToIjQuantises := fun _ _ h =>
  ⟨complete_checkF64_nan h _, complete_checkF64_value h _⟩

end Sys2Proof.Proofs.Projection

/-!
The two commands that encode a face and two coordinates (42_encoder.md R163, R164): their checks in order,
each ending the command at the first operand that fails it, and the leaf once all three have passed.
-/

namespace Sys2Proof.Proofs.EncoderCommands

open Sys2Proof Sys2Proof.Machine Sys2Proof.Proofs.Exchanges Sys2Proof.Proofs.LookupTables

/-! ### The check of a face -/

theorem checkFace_above {x : Word} (h : 5 < x.toNat) (n : ErrOperand) (k : Nat → Prog) :
    checkFace x n k = raise .invalidFace n := if_pos h

theorem checkFace_legal {x : Word} (h : x.toNat ≤ 5) (n : ErrOperand) (k : Nat → Prog) :
    checkFace x n k = k x.toNat := if_neg h.not_gt

/-! ### A command whose program ends without asking -/

section
variable {s : State} {f : InFlight} {i : Instr} (h : Runs s f)
include h

theorem exec_fails {e : ErrCode} {a : ErrOperand} (hp : commandProg i s f = raise e a) :
    ∃ t, exec i s = .next t ∧ Fails s t e a [] := by
  rw [exec_eq_complete, complete_runs _ h, hp]
  exact ⟨_, rfl, finish_raise s f e a⟩

theorem exec_succeeds1 {v : Word} (hp : commandProg i s f = return1 v) :
    ∃ t, exec i s = .next t ∧ Succeeds1 s t v [] := by
  rw [exec_eq_complete, complete_runs _ h, hp]
  exact ⟨_, rfl, finish_return1 s f v⟩

end

/-! ### The two commands -/

/-- Settles O38: the program follows the checks of R163 up to the first that fails. -/
theorem fromFaceIjEncodes : Obligations.FromFaceIjEncodes := by
  refine fun s f h => ⟨fun hface => exec_fails h ?_, fun hface hi => exec_fails h ?_,
    fun hface hi hj => exec_fails h ?_, fun hface hi hj => exec_succeeds1 h ?_⟩
    <;> rw [commandProg, fromFaceIjProg, Config.maxSize]
  · rw [checkFace_above hface]
  · rw [checkFace_legal hface, checkBelow_above hi]
  · rw [checkFace_legal hface, checkBelow_below hi, checkBelow_above hj]
  · rw [checkFace_legal hface, checkBelow_below hi, checkBelow_below hj]

/-- Settles O42: the program follows the checks of R164 up to the first that fails. -/
theorem fromFaceUvEncodes : Obligations.FromFaceUvEncodes := by
  refine fun s f h => ⟨fun hface => exec_fails h ?_, fun hface hu => exec_fails h ?_,
    fun hface hu hv => exec_fails h ?_, fun hface hu hv => exec_succeeds1 h ?_⟩
    <;> rw [commandProg, fromFaceUvProg]
  · rw [checkFace_above hface]
  · rw [checkFace_legal hface, checkF64_nan hu]
  · rw [checkFace_legal hface, checkF64_value hu, checkF64_nan hv]
  · rw [checkFace_legal hface, checkF64_value hu, checkF64_value hv, fromFaceUv]

end Sys2Proof.Proofs.EncoderCommands

/-!
The chunked loops of the encoder and the decoder (42_encoder.md R160, 43_decoder.md R180): over the built
tables both follow the descent along the curve, four subdivisions a chunk.
-/

namespace Sys2Proof.Proofs.LookupTables

open Sys2Proof Sys2Proof.Machine

variable {c d : Quadrant} {n m k q : Nat}

/-! ### Stages of a descent -/

theorem Descends.split (h : Descends (n + m) c d) : ∃ e, Descends n c e ∧ Descends m e d := by
  induction n generalizing c with
  | zero => exact ⟨c, .refl c, by rwa [Nat.zero_add] at h⟩
  | succ n ih =>
    rw [Nat.succ_add] at h
    obtain _ | ⟨hq, h⟩ := h
    obtain ⟨e, hce, hed⟩ := ih h
    exact ⟨e, .child hq hce, hed⟩

/-- A descent can be made from any other quadrant of the same orientation: the places and the positions
move by the offset of the two starts, and the last orientation is the same. -/
theorem Descends.relocate (h : Descends n c d) {c' : Quadrant} (ho : c'.o = c.o) :
    ∃ d', Descends n c' d' ∧ d.o = d'.o ∧ d.i + 2 ^ n * c'.i = d'.i + 2 ^ n * c.i ∧
      d.j + 2 ^ n * c'.j = d'.j + 2 ^ n * c.j ∧ d.pos + 4 ^ n * c'.pos = d'.pos + 4 ^ n * c.pos := by
  induction h generalizing c' with
  | refl c => exact ⟨c', .refl c', ho.symm, by omega, by omega, by omega⟩
  | @child n q c d hq _ ih =>
    have hturn : (c'.child q).o = (c.child q).o := by rw [Quadrant.child, Quadrant.child, ho]
    obtain ⟨d', hd', hend, hi, hj, hp⟩ := ih hturn
    rw [child_i, child_i, ho] at hi
    rw [child_j, child_j, ho] at hj
    rw [child_pos, child_pos] at hp
    refine ⟨d', .child hq hd', hend, ?_, ?_, ?_⟩ <;> rw [pow_succ] <;> linarith

/-- Four subdivisions are those of a leaf of the construction, below the quadrant they start from. -/
theorem Descends.exists_leaf (h : Descends 4 c d) (ho : c.o < 4) :
    ∃ e, Leaf c.o e ∧ d.i = c.i * 16 + e.i ∧ d.j = c.j * 16 + e.j ∧ d.pos = c.pos * 256 + e.pos ∧
      d.o = e.o := by
  obtain ⟨e, he, hend, hi, hj, hp⟩ := h.relocate (c' := seedQuadrant c.o) rfl
  simp only [seedQuadrant] at hi hj hp
  exact ⟨e, ⟨ho, he⟩, by omega, by omega, by omega, hend⟩

/-! ### The two loops -/

/-- A chunk's part of an accumulator is put below the part of the chunks before it. -/
theorem append_chunk {a b w : Nat} (hb : b < 2 ^ w) :
    (a <<< (w * (k + 1))) ||| (b <<< (w * k)) = (a * 2 ^ w + b) <<< (w * k) := by
  rw [Nat.mul_succ, Nat.add_comm, Nat.shiftLeft_add, ← Nat.shiftLeft_or_distrib,
    ← Nat.shiftLeft_add_eq_or_of_lt hb, Nat.shiftLeft_eq a]

theorem pack_posKey {i j o : Nat} (hj : j < 16) (ho : o < 4) :
    (i <<< 6) ||| (j <<< 2) ||| o = (i * 16 + j) * 4 + o := by
  rw [← pack_ij hj ho, Nat.shiftLeft_or_distrib, ← Nat.shiftLeft_add]

theorem entry_ij {i j o : Nat} (hj : j < 16) (ho : o < 4) :
    ((i * 16 + j) * 4 + o) >>> 6 = i ∧ (((i * 16 + j) * 4 + o) >>> 2) &&& 0xF = j ∧
      ((i * 16 + j) * 4 + o) &&& 3 = o := by
  rw [Nat.and_two_pow_sub_one_eq_mod _ 4, Nat.and_two_pow_sub_one_eq_mod _ 2,
    Nat.shiftRight_eq_div_pow, Nat.shiftRight_eq_div_pow]
  omega

theorem entry_pos {p o : Nat} (ho : o < 4) : (p * 4 + o) >>> 2 = p ∧ (p * 4 + o) &&& 3 = o := by
  rw [Nat.and_two_pow_sub_one_eq_mod _ 2, Nat.shiftRight_eq_div_pow]
  omega

/-- The decoder's loop on the position of a quadrant follows the descent to it. -/
theorem Descends.decodeChunks_eq {id : Nat} (h : Descends (4 * k) c d) (ho : c.o < 4)
    (hid : ∀ t < k, positionSlice id t = d.pos / 4 ^ (4 * t) % 256) :
    decodeChunks builtIjLut id k (c.i <<< (4 * k)) (c.j <<< (4 * k)) c.o = (d.i, d.j, d.o) := by
  induction k generalizing c with
  | zero => cases h; rfl
  | succ k ih =>
    rw [Nat.mul_succ, Nat.add_comm] at h
    obtain ⟨e, hce, hed⟩ := h.split
    have heo := hce.o_lt ho
    obtain ⟨-, -, hdiv⟩ := hed.div heo
    obtain ⟨l, hl, hi, hj, hp, hend⟩ := hce.exists_leaf ho
    obtain ⟨-, hli, hlj, hlp, hlo⟩ := hl.bounds
    have hslice : positionSlice id k = l.pos := by
      rw [hid k (Nat.lt_succ_self k), hdiv]
      omega
    obtain ⟨hgi, hgj, hgo⟩ := entry_ij (i := l.i) hlj hlo
    rw [decodeChunks, hslice, pack_pos ho, hl.lutRead_ij, hgi, hgj, hgo,
      append_chunk (w := 4) hli, append_chunk (w := 4) hlj, ← hend,
      show c.i * 2 ^ 4 + l.i = e.i from hi.symm, show c.j * 2 ^ 4 + l.j = e.j from hj.symm]
    exact ih hed heo fun t ht => hid t (by omega)

/-- The encoder's loop on the place of a quadrant follows the descent to it. -/
theorem Descends.encodeChunks_eq (h : Descends (4 * k) c d) (ho : c.o < 4) :
    encodeChunks builtPosLut d.i d.j k (c.pos <<< (8 * k)) c.o = d.pos := by
  induction k generalizing c with
  | zero => cases h; rfl
  | succ k ih =>
    rw [Nat.mul_succ, Nat.add_comm] at h
    obtain ⟨e, hce, hed⟩ := h.split
    have heo := hce.o_lt ho
    obtain ⟨hdivi, hdivj, -⟩ := hed.div heo
    obtain ⟨l, hl, hi, hj, hp, hend⟩ := hce.exists_leaf ho
    obtain ⟨-, hli, hlj, hlp, hlo⟩ := hl.bounds
    have hi4 : (d.i >>> (4 * k)) &&& 0xF = l.i := by
      rw [Nat.and_two_pow_sub_one_eq_mod _ 4, Nat.shiftRight_eq_div_pow, hdivi]
      omega
    have hj4 : (d.j >>> (4 * k)) &&& 0xF = l.j := by
      rw [Nat.and_two_pow_sub_one_eq_mod _ 4, Nat.shiftRight_eq_div_pow, hdivj]
      omega
    obtain ⟨hgp, hgo⟩ := entry_pos (p := l.pos) hlo
    rw [encodeChunks, hi4, hj4, pack_posKey hlj ho, hl.lutRead_pos, hgp, hgo,
      append_chunk (w := 8) hlp, ← hend, show c.pos * 2 ^ 8 + l.pos = e.pos from hp.symm]
    exact ih hed heo

/-! ### Corners and centres -/

/-- The next digit of the position tells the subquadrant the descent goes through. -/
theorem Descends.tail (h : Descends (n + 1) c d) (ho : c.o < 4)
    (hq : q < 4) (hpos : d.pos / 4 ^ n = 4 * c.pos + q) : Descends n (c.child q) d := by
  obtain _ | @⟨_, q', _, _, hq', h⟩ := h
  obtain ⟨-, -, hp⟩ := h.div (child_o_lt ho hq')
  rw [child_pos] at hp
  obtain rfl : q' = q := by omega
  exact h

/-- The first subquadrant is the lower corner for the orientations 0 and 1 and the upper one for 2 and 3,
and turns to an orientation of the same corner. -/
theorem first_subquadrant : ∀ o < 4, posToIj o 0 / 2 = o / 2 ∧ posToIj o 0 % 2 = o / 2 ∧
    (o ^^^ posToOrientation 0) / 2 = o / 2 := by decide

/-- The third subquadrant is opposite the first and keeps the orientation. -/
theorem third_subquadrant : ∀ o < 4, posToIj o 2 / 2 + o / 2 = 1 ∧ posToIj o 2 % 2 + o / 2 = 1 ∧
    (o ^^^ posToOrientation 2) = o := by decide

/-- The curve enters what lies below a quadrant in the corner of its first subquadrant. -/
theorem Descends.corner (h : Descends n c d) (ho : c.o < 4)
    (hpos : d.pos = 4 ^ n * c.pos) :
    d.i + c.o / 2 = 2 ^ n * (c.i + c.o / 2) ∧ d.j + c.o / 2 = 2 ^ n * (c.j + c.o / 2) := by
  induction n generalizing c with
  | zero => cases h; omega
  | succ n ih =>
    rw [pow_succ, Nat.mul_assoc] at hpos
    have hchild : Descends n (c.child 0) d := h.tail ho (by decide) <| by
      rw [hpos, Nat.mul_div_cancel_left _ (by positivity), Nat.add_zero]
    obtain ⟨hri, hrj, hturn⟩ := first_subquadrant c.o ho
    obtain ⟨hi, hj⟩ := ih hchild (child_o_lt ho (by decide)) hpos
    rw [child_i, hri, show (c.child 0).o / 2 = c.o / 2 from hturn] at hi
    rw [child_j, hrj, show (c.child 0).o / 2 = c.o / 2 from hturn] at hj
    rw [hi, hj, pow_succ]
    constructor <;> ring

/-- The start of the third subquadrant of `c` lies on one side of the centre of `c`. -/
theorem Descends.centre (h : Descends (n + 1) c d) (ho : c.o < 4)
    (hpos : d.pos = 4 ^ n * (4 * c.pos + 2)) :
    d.i + c.o / 2 = 2 ^ n * (2 * c.i + 1) ∧ d.j + c.o / 2 = 2 ^ n * (2 * c.j + 1) := by
  have hchild : Descends n (c.child 2) d := h.tail ho (by decide) <| by
    rw [hpos, Nat.mul_div_cancel_left _ (by positivity)]
  obtain ⟨hri, hrj, hturn⟩ := third_subquadrant c.o ho
  obtain ⟨hi, hj⟩ := hchild.corner (child_o_lt ho (by decide)) hpos
  rw [show (c.child 2).o = c.o from hturn] at hi hj
  rw [child_i, Nat.add_assoc, hri] at hi
  rw [child_j, Nat.add_assoc, hrj] at hj
  exact ⟨hi, hj⟩

/-! ### The leaves of a face -/

/-- A leaf of the curve on a face. The eight chunks make 32 subdivisions; the first two stand for the
leading zeros of the 30-bit coordinates (42_encoder.md R160). -/
def FaceLeaf (face : Nat) (d : Quadrant) : Prop := Descends 32 (seedQuadrant (face &&& swapMask)) d

theorem seed_lt (face : Nat) : (seedQuadrant (face &&& swapMask)).o < 4 :=
  (Nat.and_le_right : face &&& 1 ≤ 1).trans_lt (by decide)

theorem exists_faceLeaf_pos (face : Nat) {p : Nat} (hp : p < 2 ^ 60) :
    ∃ d, FaceLeaf face d ∧ d.pos = p :=
  exists_descends_pos 32 _ (Nat.div_eq_of_lt (hp.trans (by decide)))

theorem exists_faceLeaf_ij (face : Nat) {i j : Nat} (hi : i < 2 ^ 30) (hj : j < 2 ^ 30) :
    ∃ d, FaceLeaf face d ∧ d.i = i ∧ d.j = j :=
  exists_descends_ij 32 (seed_lt face) (Nat.div_eq_of_lt (hi.trans (by decide)))
    (Nat.div_eq_of_lt (hj.trans (by decide)))

/-- The slices are the base 256 digits of the position that stands above bit 0 (43_decoder.md R181). -/
theorem positionSlice_eq (id : Nat) {k : Nat} (hk : k < 8) :
    positionSlice id k = id / 2 % 2 ^ 60 / 4 ^ (4 * k) % 256 := by
  rw [positionSlice, Nat.and_two_pow_sub_one_eq_mod _ 4, Nat.and_two_pow_sub_one_eq_mod _ 8,
    Nat.shiftRight_eq_div_pow, Nat.shiftRight_eq_div_pow]
  split
  next htop =>
    subst htop
    omega
  next => interval_cases k <;> omega

theorem FaceLeaf.encodePosition_eq {face : Nat} (h : FaceLeaf face d) :
    encodePosition builtPosLut face d.i d.j = d.pos := by
  have hloop := Descends.encodeChunks_eq (k := 8) h (seed_lt face)
  rwa [seedQuadrant, Nat.zero_shiftLeft] at hloop

theorem FaceLeaf.decode_eq {id : Word} (h : FaceLeaf (faceField id) d)
    (hpos : d.pos = id.toNat / 2 % 2 ^ 60) :
    (faceIjOrientation builtIjLut id).i = d.i ∧ (faceIjOrientation builtIjLut id).j = d.j := by
  have hloop := Descends.decodeChunks_eq (k := 8) (id := id.toNat) h (seed_lt _)
    fun t ht => hpos ▸ positionSlice_eq _ ht
  rw [seedQuadrant, Nat.zero_shiftLeft] at hloop
  rw [faceIjOrientation, Config.numChunks, hloop]
  exact ⟨rfl, rfl⟩

/-- Every id decodes to the leaf at its position, whatever stands in bit 0. -/
theorem exists_faceLeaf_decoded (id : Word) :
    ∃ d, FaceLeaf (faceField id) d ∧ d.pos = id.toNat / 2 % 2 ^ 60 ∧
      (faceIjOrientation builtIjLut id).i = d.i ∧ (faceIjOrientation builtIjLut id).j = d.j := by
  obtain ⟨d, hd, hpos⟩ := exists_faceLeaf_pos (faceField id)
    (Nat.mod_lt (id.toNat / 2) (Nat.two_pow_pos 60))
  exact ⟨d, hd, hpos, hd.decode_eq hpos⟩

end Sys2Proof.Proofs.LookupTables

/-!
Decoding and encoding undo each other (43_decoder.md R186), and a cell decodes to a leaf at its centre (R184).
-/

namespace Sys2Proof.Proofs.Decoding

open Sys2Proof Sys2Proof.Machine Sys2Proof.Proofs.Cells Sys2Proof.Proofs.EncoderRange
  Sys2Proof.Proofs.LookupTables

/-! ### Round trips -/

/-- Settles O39: the encoder and the decoder follow one descent, to the leaf at the address. -/
theorem gridAddressRoundTrip : Obligations.GridAddressRoundTrip := by
  intro face i j hface hi hj
  obtain ⟨d, hd, rfl, rfl⟩ := exists_faceLeaf_ij face hi hj
  have hpos := encodePosition_lt (face := face) hi hj
  have hid := fromFaceIj_toNat hface hpos
  rw [hd.encodePosition_eq] at hpos hid
  have hfield : faceField (fromFaceIj builtPosLut face d.i d.j) = face := by
    rw [faceField_eq, hid]
    omega
  rw [← hfield] at hd
  exact ⟨hfield, hd.decode_eq (by omega)⟩

/-- The decoded address of an id encodes to the leaf `id | 1`. -/
theorem fromFaceIj_decoded {id : Word} (hface : faceField id ≤ 5) {g : GridAddress}
    (hg : g = faceIjOrientation builtIjLut id) :
    (fromFaceIj builtPosLut g.face g.i g.j).toNat = id.toNat / 2 * 2 + 1 := by
  obtain ⟨d, hd, hpos, hi, hj⟩ := exists_faceLeaf_decoded id
  have henc := hd.encodePosition_eq
  have hgface : g.face = faceField id := by rw [hg, faceIjOrientation]
  rw [hgface, hg, hi, hj, fromFaceIj_toNat hface (by omega), henc, hpos, faceField_eq]
  omega

/-- Settles O40: bit 0 of a leaf is set already, and the ancestor drops what `id | 1` adds. -/
theorem cellRoundTrip : Obligations.CellRoundTrip := by
  refine ⟨fun id hid hleaf => BitVec.eq_of_toNat_eq ?_, fun l x hl hx g hg => BitVec.eq_of_toNat_eq ?_⟩
  · rw [fromFaceIj_decoded (by rw [faceField_eq]; exact hid.1) rfl]
    omega
  · have hface : faceField (cellAt l x) ≤ 5 := by
      rw [faceField_eq]
      exact (cellAt_isCellId hl hx).1
    have hindex := cellAt_index hl hx
    rw [Nat.pow_succ', ← Nat.div_div_eq_div_mul] at hindex
    have habove : ((cellAt l x).toNat / 2 * 2 + 1) / 2 = (cellAt l x).toNat / 2 := by omega
    rw [parentId_toNat, fromFaceIj_decoded hface hg, Nat.pow_succ', ← Nat.div_div_eq_div_mul, habove,
      hindex, ← Nat.pow_succ', cellAt_toNat hl hx]

/-! ### The central leaf -/

theorem decodeChunks_congr {id id' : Nat} (t : Lut) {k : Nat} (hk : k ≤ 8) (h : id / 2 = id' / 2)
    (i j o : Nat) : decodeChunks t id k i j o = decodeChunks t id' k i j o := by
  induction k generalizing i j o with
  | zero => rfl
  | succ k ih =>
    rw [decodeChunks, decodeChunks, positionSlice_eq id hk, positionSlice_eq id' hk, h]
    exact ih (by omega) _ _ _

theorem faceIjOrientation_or_one (t : Lut) (id : Word) :
    (faceIjOrientation t id).face = (faceIjOrientation t (id ||| 1)).face ∧
    (faceIjOrientation t id).i = (faceIjOrientation t (id ||| 1)).i ∧
    (faceIjOrientation t id).j = (faceIjOrientation t (id ||| 1)).j := by
  have hhalf : id.toNat / 2 = (id ||| 1).toNat / 2 := by
    rw [BitVec.toNat_or, Nat.or_div_two]
    exact (Nat.or_zero _).symm
  have hface : faceField id = faceField (id ||| 1) := by
    rw [faceField_eq, faceField_eq]
    omega
  have hloop (o : Nat) := decodeChunks_congr t (k := Config.numChunks) le_rfl hhalf 0 0 o
  simp only [faceIjOrientation, hface, hloop, and_self]

/-- On either side of the centre of a cell `n + 1` levels above the leaves. -/
theorem mod_of_centre {n a b o : Nat} (ho : o < 4) (h : a + o / 2 = 2 ^ n * (2 * b + 1)) :
    a % 2 ^ (n + 1) = 2 ^ n ∨ a % 2 ^ (n + 1) = 2 ^ n - 1 := by
  have hn := Nat.two_pow_pos n
  have hsplit : 2 ^ n * (2 * b + 1) = 2 ^ (n + 1) * b + 2 ^ n := by ring
  have hlt : 2 ^ n < 2 ^ (n + 1) := Nat.pow_lt_pow_succ (by decide)
  obtain hlow | hhigh : o / 2 = 0 ∨ o / 2 = 1 := by omega
  · left
    rw [show a = 2 ^ (n + 1) * b + 2 ^ n by omega, Nat.mul_add_mod, Nat.mod_eq_of_lt hlt]
  · right
    rw [show a = 2 ^ (n + 1) * b + (2 ^ n - 1) by omega, Nat.mul_add_mod, Nat.mod_eq_of_lt (by omega)]

/-- Below the digits of a cell's index the position has a digit 2, the marker's, and then zeros. -/
theorem cellAt_position {l n x : Nat} (hn : 30 - l = n + 1) (hx : x < 6 * 4 ^ l) :
    (cellAt l x).toNat / 2 % 2 ^ 60 = 4 ^ n * (4 * (x % 4 ^ l) + 2) := by
  obtain rfl : l = 29 - n := by omega
  have hhalf : (cellAt (29 - n) x).toNat / 2 = 4 ^ n * (4 * x + 2) := by
    rw [cellAt_toNat (by omega) hx, hn, pow_succ, pow_mul, show 2 ^ 2 = 4 from rfl, pow_succ 4]
    exact Nat.div_eq_of_eq_mul_left (by decide) (by ring)
  have hsplit : 2 ^ 60 = 4 ^ n * (4 * 4 ^ (29 - n)) := by
    rw [← pow_succ', ← pow_add, show n + (29 - n + 1) = 30 by omega]
    rfl
  have hdigit : (4 * x + 2) % (4 * 4 ^ (29 - n)) = 4 * (x % 4 ^ (29 - n)) + 2 := by
    rw [Nat.mod_mul, show (4 * x + 2) / 4 = x by omega]
    omega
  rw [hhalf, hsplit, Nat.mul_mod_mul_left, hdigit]

/-- Settles O45: the position goes on with a digit 2 and then zeros, so the descent goes through the third
subquadrant of the cell and then stays in a corner, next to the cell's centre. -/
theorem cellDecodesToItsCentralLeaf : Obligations.CellDecodesToItsCentralLeaf := by
  refine ⟨faceIjOrientation_or_one, fun l x hl hx g hg => ?_⟩
  obtain ⟨n, hn⟩ : ∃ n, 30 - l = n + 1 := ⟨29 - l, by omega⟩
  obtain ⟨d, hd, hpos, hi, hj⟩ := exists_faceLeaf_decoded (cellAt l x)
  have hd' : Descends (l + 2 + (n + 1)) (seedQuadrant (faceField (cellAt l x) &&& swapMask)) d := by
    rwa [show l + 2 + (n + 1) = 32 by omega]
  obtain ⟨c, hc, hcd⟩ := hd'.split
  have hco := hc.o_lt (seed_lt _)
  rw [cellAt_position hn hx] at hpos
  have hcpos : c.pos = x % 4 ^ l := by
    obtain ⟨-, -, hp⟩ := hcd.div hco
    rw [← hp, hpos, pow_succ, ← Nat.div_div_eq_div_mul, Nat.mul_div_cancel_left _ (by positivity)]
    omega
  rw [← hcpos] at hpos
  obtain ⟨hci, hcj⟩ := hcd.centre hco hpos
  rw [hg, hi, hj, hn, show 29 - l = n by omega]
  exact ⟨mod_of_centre hco hci, mod_of_centre hco hcj⟩

/-! ### TO_FACE_IJ -/

/-- The marker of a level stands under the parity mask on the even levels up to 28 (43_decoder.md R183). -/
theorem parityMask_marker : ∀ l ≤ 30, 2 ^ (2 * (30 - l)) &&& parityMask ≠ 0 ↔ l % 2 = 0 ∧ l ≤ 28 := by
  decide

theorem faceField_cellAt {l x : Nat} (hl : l ≤ 30) (hx : x < 6 * 4 ^ l) :
    faceField (cellAt l x) = x / 4 ^ l := by rw [faceField_eq, cellAt_face hl hx]

/-- Settles O44: the operand is valid, and its marker decides the correction. -/
theorem toFaceIjDecodes : Obligations.ToFaceIjDecodes := by
  intro s f l x hf hl hx hop i j o hloop
  rw [hop] at hloop
  have hseed : x / 4 ^ l &&& swapMask = x / 4 ^ l % 2 := Nat.and_one_is_mod _
  rw [exec_eq_complete, complete_runs _ hf, commandProg, hop, toFaceIjProg,
    checkId_valid (cellAt_isCellId hl hx), faceIjOrientation, faceField_cellAt hl hx, hseed,
    Config.numChunks, hloop, lsb_cellAt hl hx]
  simp only [parityMask_marker l hl]
  exact ⟨_, rfl, finish_four ..⟩

end Sys2Proof.Proofs.Decoding

/-!
The commands that take a CellId (44_traversal.md): the check all nine begin with (R200), and the moves along
the curve (R208 to R214).
-/

namespace Sys2Proof.Proofs.Traversal

open Sys2Proof Sys2Proof.Machine Sys2Proof.Proofs.Cells Sys2Proof.Proofs.EncoderCommands
  Sys2Proof.Proofs.Decoding

/-! ### The check of a CellId -/

theorem checkId_noFace {id : Word} (h : 5 < id.toNat / 2 ^ 61) (n : ErrOperand) (k : Nat → Prog) :
    checkId id n k = raise .invalidFace n := by
  rw [checkId, faceField_eq, if_pos h]

/-- On a legal face the check is the marker's part of the invariant (10_state.md R22). -/
theorem checkId_malformed {id : Word} (hface : id.toNat / 2 ^ 61 ≤ 5) (h : ¬IsCellId id)
    (n : ErrOperand) (k : Nat → Prog) : checkId id n k = raise .malformedCellId n := by
  have hmarker : lowField id = 0 ∨ markerIndex id % 2 = 1 := by
    by_contra! hgood
    obtain ⟨hlow, hodd⟩ := hgood
    obtain ⟨hle, hmod⟩ := markerIndex_spec hlow
    exact h ⟨hface, _, hle, Nat.mod_two_ne_one.mp hodd, hmod⟩
  rw [checkId, faceField_eq, if_neg hface.not_gt, if_pos hmarker]

theorem checkId_cellAt {l x : Nat} (hl : l ≤ 30) (hx : x < 6 * 4 ^ l) (n : ErrOperand)
    (k : Nat → Prog) : checkId (cellAt l x) n k = k l := by
  rw [checkId_valid (cellAt_isCellId hl hx), levelOf_cellAt hl hx]

/-- The commands that take a CellId check it before anything else (60_exceptions.md R263). -/
theorem exists_commandProg_eq_checkId {i : Instr}
    (hi : i ∈ [Instr.toFaceIj, .face, .level, .advance, .advanceWrap, .next, .prev, .edgeNeighbors] ∨
      ∃ l, i = .parent l) (s : State) (f : InFlight) :
    ∃ k, commandProg i s f = checkId f.op0 .op0 k := by
  simp only [List.mem_cons, List.not_mem_nil, or_false] at hi
  obtain (rfl | rfl | rfl | rfl | rfl | rfl | rfl | rfl) | ⟨l, rfl⟩ := hi
    <;> simp only [commandProg, toFaceIjProg, faceProg, levelProg, advanceProg, advanceWrapProg, nextProg,
      prevProg, edgeNeighborsProg, parentProg]
    <;> exact ⟨_, rfl⟩

/-- Settles O48: the check refuses the id, and the command ends there. -/
theorem cellIdOperandsAreChecked : Obligations.CellIdOperandsAreChecked := by
  intro i s f hi hf
  obtain ⟨k, hk⟩ := exists_commandProg_eq_checkId hi s f
  exact ⟨fun hface => exec_fails hf (hk.trans (checkId_noFace hface _ k)),
    fun hface hid => exec_fails hf (hk.trans (checkId_malformed hface hid _ k))⟩

/-- Settles O49: both answers are read off the cell once it has passed its check. -/
theorem faceAndLevelOfACell : Obligations.FaceAndLevelOfACell := by
  refine fun s f l x hf hl hx hop => ⟨exec_succeeds1 hf ?_, exec_succeeds1 hf ?_⟩
    <;> rw [commandProg, hop]
  · rw [faceProg, checkId_cellAt hl hx, faceField_cellAt hl hx]
  · rw [levelProg, checkId_cellAt hl hx]

/-! ### Indices off the curve -/

theorem intClamp_eq {lo hi : Int} (h : lo ≤ hi) (x : Int) :
    intClamp x lo hi = max lo (min x hi) := by
  unfold intClamp
  split_ifs <;> omega

theorem succ_emod_toNat {x n : Nat} (h : x < n) :
    (((x : Int) + 1) % n).toNat = if x + 1 = n then 0 else x + 1 := by
  split_ifs with hlast
  · rw [← hlast, Nat.cast_succ, Int.emod_self, Int.toNat_zero]
  · rw [Int.emod_eq_of_lt (by omega) (by omega)]
    omega

theorem pred_emod_toNat {x n : Nat} (h : x < n) :
    (((x : Int) + -1) % n).toNat = if x = 0 then n - 1 else x - 1 := by
  split_ifs with hfirst
  · rw [← Int.add_emod_right, Int.emod_eq_of_lt (by omega) (by omega)]
    omega
  · rw [Int.emod_eq_of_lt (by omega) (by omega)]
    omega

/-! ### The moves of a cell -/

section Moves

variable {l x : Nat} (hl : l ≤ 30) (hx : x < 6 * 4 ^ l)
include hl hx

/-- A cell's marker under another index is the cell of that index (10_state.md R23). -/
theorem u64_index_lsb {y : Int} (hy : 0 ≤ y) :
    u64 (y * 2 ^ indexShift l + lsb (cellAt l x)) = cellAt l y.toNat := by
  lift y to Nat using hy
  rw [lsb_cellAt hl hx, u64, cellAt, Int.toNat_natCast, ← BitVec.ofInt_natCast, indexShift]
  push_cast
  rfl

theorem advanceId_cellAt (steps : Int) :
    advanceId (cellAt l x) steps = cellAt l (max 0 (min ((x : Int) + steps) (6 * 4 ^ l))).toNat := by
  have hN : (cellCount l : Int) = 6 * 4 ^ l := by simp [cellCount]
  rw [advanceId, levelOf_cellAt hl hx, curveIndex_cellAt hl hx, intClamp_eq (Int.natCast_nonneg _), hN]
  exact u64_index_lsb hl hx (le_max_left ..)

theorem advanceWrapId_cellAt (steps : Int) :
    advanceWrapId (cellAt l x) steps = cellAt l (((x : Int) + steps) % (6 * 4 ^ l : Nat)).toNat := by
  rw [advanceWrapId, levelOf_cellAt hl hx, curveIndex_cellAt hl hx, cellCount]
  exact u64_index_lsb hl hx (Int.emod_nonneg _ (by positivity))

end Moves

/-! ### The traversal commands -/

/-- Settles O51: the steps are any s64 value, and the clamped index is that of a cell or of the End. -/
theorem advanceClampsTheIndex : Obligations.AdvanceClampsTheIndex := by
  refine fun s f l x hf hl hx hop => exec_succeeds1 hf ?_
  rw [commandProg, hop, advanceProg, checkId_cellAt hl hx, advanceId_cellAt hl hx, s64]

/-- Settles O52: the remainder is never negative. -/
theorem advanceWrapWrapsTheIndex : Obligations.AdvanceWrapWrapsTheIndex := by
  refine fun s f l x hf hl hx hop => exec_succeeds1 hf ?_
  rw [commandProg, hop, advanceWrapProg, checkId_cellAt hl hx, advanceWrapId_cellAt hl hx, s64]
  push_cast
  rfl

/-- Settles O53: both wrap by one step, and only the last and the first index meet the ends. -/
theorem nextAndPrevStepTheIndex : Obligations.NextAndPrevStepTheIndex := by
  refine fun s f l x hf hl hx hop => ⟨exec_succeeds1 hf ?_, exec_succeeds1 hf ?_⟩
    <;> rw [commandProg, hop]
  · rw [nextProg, checkId_cellAt hl hx, advanceWrapId_cellAt hl hx, succ_emod_toNat hx]
  · rw [prevProg, checkId_cellAt hl hx, advanceWrapId_cellAt hl hx, pred_emod_toNat hx]

end Sys2Proof.Proofs.Traversal


/-!
The wrapped coordinate (45_neighbors.md R241 to R243): on the face every operation of it is exact.
-/

namespace Sys2Proof.Proofs.WrapCoordinates

open Sys2Proof Sys2Proof.Machine Sys2Proof.Proofs.Binary64 Sys2Proof.Proofs.Projection
  Sys2Proof.Proofs.Traversal

/-! ### Words that stand for a rational -/

/-- The word `w` is finite and stands for `x` (00_scope.md R12). -/
def HasValue (w : Word) (x : ℚ) : Prop :=
  ∃ neg m e, f64Value w = .fin neg m e ∧ finValue neg m e = x

theorem lt_overflow_threshold {x : ℚ} (h : x < 2 ^ 53) : x < 2 ^ 1024 - 2 ^ 970 := by
  have h53 : (2 : ℚ) ^ 53 ≤ 2 ^ 970 := pow_le_pow_right₀ one_le_two (by omega)
  have h971 : (2 : ℚ) ^ 970 * 2 ≤ 2 ^ 1024 := by
    rw [← pow_succ]
    exact pow_le_pow_right₀ one_le_two (by omega)
  generalize (2 : ℚ) ^ 1024 = t at *
  generalize (2 : ℚ) ^ 970 = u at *
  linarith

/-- A value has the sign of its encoding, so a count of units of `2^k` is `±|v|` of them. -/
theorem finValue_eq_natAbs {neg : Bool} {m : Nat} {e v k : Int}
    (h : finValue neg m e = (v : ℚ) * 2 ^ k) : finValue neg m e = finValue neg v.natAbs k := by
  have hmag : (m : ℚ) * 2 ^ e = v.natAbs * 2 ^ k := by
    rw [← abs_finValue neg, h, abs_mul, abs_of_pos (zpow_pos (two_pos (α := ℚ)) k), Nat.cast_natAbs,
      Int.cast_abs]
  have hreal := congrArg (Rat.cast (K := ℝ)) hmag
  push_cast at hreal
  exact finValue_eq_iff.mpr hreal

/-- A count of 53 bits of units of `2^k` is its own rounding. -/
theorem hasValue_f64Round {neg : Bool} {m : Nat} {e v k : Int}
    (h : finValue neg m e = (v : ℚ) * 2 ^ k) (hv : v.natAbs < 2 ^ 53) (hk : -1074 ≤ k) (hk0 : k ≤ 0) :
    HasValue (f64Round neg m e) (v * 2 ^ k) := by
  have hvalue := finValue_eq_natAbs h
  have hlt : |finValue neg m e| < 2 ^ 53 := by
    rw [hvalue, abs_finValue]
    calc (v.natAbs : ℚ) * 2 ^ k ≤ v.natAbs :=
          mul_le_of_le_one_right (Nat.cast_nonneg _) (zpow_le_one_of_nonpos₀ one_le_two hk0)
      _ < 2 ^ 53 := by exact_mod_cast hv
  obtain ⟨m1, e1, hfin, hval⟩ := f64Round_exact hvalue hv hk (lt_overflow_threshold hlt)
  exact ⟨neg, m1, e1, hfin, hval.trans h⟩

/-! ### The operations of the coordinate -/

theorem hasValue_f64OfInt {v : Int} (hv : v.natAbs < 2 ^ 53) : HasValue (f64OfInt v) v := by
  have h := hasValue_f64Round (finValue_natAbs v 0) hv (by omega) le_rfl
  rwa [zpow_zero, mul_one] at h

theorem f64Div_fin {a b : Word} {s1 s2 : Bool} {m1 m2 : Nat} {e1 e2 : Int}
    (ha : f64Value a = .fin s1 m1 e1) (hb : f64Value b = .fin s2 m2 e2) (h : m2 ≠ 0) :
    f64Div a b = f64DivFin (s1 ^^ s2) m1 e1 m2 e2 := by
  rw [f64Div, ha, hb]
  exact if_neg h

theorem f64RoundSticky_exact (neg : Bool) (m : Nat) (e : Int) :
    f64RoundSticky neg m e false = f64Round neg (2 * m) (e - 1) := rfl

/-- Division by a power of two leaves no remainder, and its one rounding is that of the exact quotient. -/
theorem f64DivFin_two_pow (neg : Bool) (m p : Nat) (e e2 : Int) :
    f64DivFin neg m e (2 ^ p) e2 = f64Round neg (2 * (m * 2 ^ 56)) (e - e2 - (p + 56 : Nat) - 1) := by
  have hscaled : m * 2 ^ (p + 56) = m * 2 ^ 56 * 2 ^ p := by rw [pow_add]; ring
  have hrem : decide (m * 2 ^ 56 * 2 ^ p % 2 ^ p ≠ 0) = false :=
    decide_eq_false (not_not.mpr (Nat.mul_mod_left ..))
  rw [f64DivFin, Nat.log2_two_pow, hscaled, hrem, Nat.mul_div_cancel _ (Nat.two_pow_pos p),
    f64RoundSticky_exact]

theorem finValue_quotient (s : Bool) (m p : Nat) (e e2 : Int) :
    finValue s (2 * (m * 2 ^ 56)) (e - e2 - (p + 56 : Nat) - 1) = finValue s m e / 2 ^ (e2 + p) := by
  have hpow : (2 : ℚ) ^ e = 2 ^ (e - e2 - (p + 56 : Nat) - 1) * 2 ^ 57 * 2 ^ (e2 + p) := by
    rw [← zpow_natCast, ← zpow_add₀ two_ne_zero, ← zpow_add₀ two_ne_zero]
    congr 1
    push_cast
    ring
  rw [eq_div_iff (zpow_ne_zero _ two_ne_zero), finValue, finValue, hpow]
  cases s <;> simp only [signedNat] <;> push_cast <;> ring

/-- The quotient of a count of 53 bits by `2^30` is exact. -/
theorem hasValue_f64Div_f64Two30 {a : Word} {v : Int} (ha : HasValue a v) (hv : v.natAbs < 2 ^ 53) :
    HasValue (f64Div a f64Two30) (v * 2 ^ (-30 : Int)) := by
  obtain ⟨s, m, e, hfin, hval⟩ := ha
  have hquot := finValue_quotient s m 52 e (-22)
  rw [hval, div_eq_mul_inv, ← zpow_neg] at hquot
  rw [f64Div_fin hfin f64Value_f64Two30 (Nat.two_pow_pos 52).ne', f64DivFin_two_pow, Bool.xor_false]
  exact hasValue_f64Round hquot hv (by omega) (by omega)

/-- A difference that is a count of 53 bits of units of `2^k` is exact. -/
theorem hasValue_f64Sub {a b : Word} {x y : ℚ} {v k : Int} (ha : HasValue a x) (hb : HasValue b y)
    (h : x - y = v * 2 ^ k) (hv : v.natAbs < 2 ^ 53) (hk : -1074 ≤ k) (hk0 : k ≤ 0) :
    HasValue (f64Sub a b) (v * 2 ^ k) := by
  obtain ⟨s1, m1, e1, ha, rfl⟩ := ha
  obtain ⟨s2, m2, e2, hb, rfl⟩ := hb
  obtain ⟨hround, hzero⟩ := f64Add_exact ha (f64Value_f64Neg hb)
  rw [finValue_not, ← sub_eq_add_neg, h] at hround hzero
  by_cases h0 : (v : ℚ) * 2 ^ k = 0
  · rw [f64Sub, hzero h0, h0]
    exact ⟨_, _, _, f64Value_f64Zero _, by simp [finValue, signedNat]⟩
  · obtain ⟨neg, m, e, hval, heq⟩ := hround h0
    rw [f64Sub, heq]
    exact hasValue_f64Round hval hv hk hk0

/-- The order of finite words is that of their values. -/
theorem f64Lt_iff {a b : Word} {x y : ℚ} (ha : HasValue a x) (hb : HasValue b y) :
    f64Lt a b = true ↔ x < y := by
  obtain ⟨s1, m1, e1, ha, rfl⟩ := ha
  obtain ⟨s2, m2, e2, hb, rfl⟩ := hb
  rw [f64Lt, ha, hb, ← finValue_alignedInt s1 m1 (min_le_left e1 e2),
    ← finValue_alignedInt s2 m2 (min_le_right e1 e2), mul_lt_mul_iff_left₀ (zpow_pos two_pos _),
    Int.cast_lt, decide_eq_true_eq]

/-- A value strictly between the limits is not clamped. -/
theorem f64Clamp_between {w lo hi : Word} {x y z : ℚ} (hw : HasValue w x) (hlo : HasValue lo y)
    (hhi : HasValue hi z) (hyx : y < x) (hxz : x < z) : f64Clamp w lo hi = w := by
  rw [f64Clamp, if_neg (by rw [f64Lt_iff hw hlo]; exact hyx.not_gt),
    if_neg (by rw [f64Lt_iff hhi hw]; exact hxz.not_gt)]

theorem hasValue_f64One : HasValue f64One 1 :=
  ⟨_, _, _, f64Value_f64One, by norm_num [finValue, signedNat]⟩

theorem f64Value_uvLimit : f64Value uvLimit = .fin false (2 ^ 52 + 1) (-52) := by decide

theorem hasValue_uvLimit : HasValue uvLimit (1 + 2 ^ (-52 : Int)) :=
  ⟨_, _, _, f64Value_uvLimit, by norm_num [finValue, signedNat]⟩

theorem hasValue_neg_uvLimit : HasValue (f64Neg uvLimit) (-(1 + 2 ^ (-52 : Int))) :=
  ⟨_, _, _, f64Value_f64Neg f64Value_uvLimit, by norm_num [finValue, signedNat]⟩

/-! ### The coordinate -/

/-- On the face the quotient and the difference are exact, and lie between the limits. -/
theorem hasValue_wrapUV {i : Int} (h0 : 0 ≤ i) (h30 : i < 2 ^ 30) :
    HasValue (wrapUV i) ((2 * i + 1 - 2 ^ 30 : Int) * 2 ^ (-30 : Int)) := by
  have hquot := hasValue_f64Div_f64Two30 (hasValue_f64OfInt (v := 2 * i + 1) (by omega)) (by omega)
  have hsub : ((2 * i + 1 : Int) : ℚ) * 2 ^ (-30 : Int) - 1 =
      (2 * i + 1 - 2 ^ 30 : Int) * 2 ^ (-30 : Int) := by
    push_cast
    norm_num
    ring
  have hcoord := hasValue_f64Sub hquot hasValue_f64One hsub (by omega) (by omega) (by omega)
  have hlow : (0 : ℚ) < 2 * i + 1 := by exact_mod_cast (by omega)
  have hhigh : (2 * i + 1 : ℚ) < 2 * 2 ^ 30 := by exact_mod_cast (by omega)
  rw [← hsub] at hcoord ⊢
  rw [wrapUV, f64Clamp_between hcoord hasValue_neg_uvLimit hasValue_uvLimit]
  · exact hcoord
  · norm_num
    linarith
  · norm_num
    linarith

theorem wrapClamp_eq (i : Int) : wrapClamp i = max (-1) (min i (2 ^ 30)) := intClamp_eq (by decide) i

/-- Settles O55: off the face one coordinate is left on each side, and its conversion is the limit. -/
theorem wrapCoordinatesAreExact : Obligations.WrapCoordinatesAreExact := by
  refine fun i => ⟨fun h0 h30 => ?_, fun hlow => ?_, fun hhigh => ?_⟩
  · rw [show wrapClamp i = i by rw [wrapClamp_eq]; omega, div_eq_mul_inv, ← zpow_ofNat, ← zpow_neg]
    exact hasValue_wrapUV h0 h30
  · rw [show wrapClamp i = -1 by rw [wrapClamp_eq]; omega]
    decide
  · rw [show wrapClamp i = 2 ^ 30 by rw [wrapClamp_eq]; omega]
    decide

end Sys2Proof.Proofs.WrapCoordinates

/-!
The face wrap and EDGE_NEIGHBORS as programs (45_neighbors.md R240, R244, R247): a candidate's requests, and
then its leaf or PROJECTION_FAULT.
-/

namespace Sys2Proof.Proofs.Neighbors

open Sys2Proof Sys2Proof.Machine Sys2Proof.Proofs.EncoderCommands Sys2Proof.Proofs.Exchanges
  Sys2Proof.Proofs.Traversal

/-! ### A program's beginning -/

/-- With the answers of `ans` the program `p` makes the requests `qs` and goes on as `p'`. -/
def GoesOn (ans : CollabReq → CollabRsp) (p : Prog) (qs : List CollabReq) (p' : Prog) : Prop :=
  p.run ans = p'.run ans ∧ p.requests ans = qs ++ p'.requests ans

theorem GoesOn.trans {ans : CollabReq → CollabRsp} {p p' p'' : Prog} {qs qs' : List CollabReq}
    (h : GoesOn ans p qs p') (h' : GoesOn ans p' qs' p'') : GoesOn ans p (qs ++ qs') p'' :=
  ⟨h.1.trans h'.1, by rw [h.2, h'.2, List.append_assoc]⟩

section
variable {s : State} {f : InFlight} {i : Instr} {qs : List CollabReq} (hf : Runs s f) (hfresh : Fresh f)
include hf

theorem exec_eq_finish (i : Instr) : exec i s = .next (s.finish f (commandProg i s f)) :=
  (exec_eq_complete i s).trans (complete_runs _ hf)

include hfresh

theorem exec_goesOn_fails {e : ErrCode} {a : ErrOperand}
    (hp : GoesOn s.collabAnswer (commandProg i s f) qs (raise e a)) :
    ∃ t, exec i s = .next t ∧ Fails s t e a qs := by
  have hdone := finish_fresh_error (s := s) hfresh hp.1
  rw [hp.2, raise_requests, List.append_nil] at hdone
  exact ⟨_, exec_eq_finish hf i, hdone⟩

theorem exec_goesOn_succeeds1 {v : Word}
    (hp : GoesOn s.collabAnswer (commandProg i s f) qs (return1 v)) :
    ∃ t, exec i s = .next t ∧ Succeeds1 s t v qs := by
  have hdone := finish_fresh_one (s := s) hfresh hp.1
  rw [hp.2, return1_requests, List.append_nil] at hdone
  exact ⟨_, exec_eq_finish hf i, hdone⟩

theorem exec_goesOn_succeeds4 {r0 r1 r2 r3 : Word}
    (hp : GoesOn s.collabAnswer (commandProg i s f) qs (.done (.four r0 r1 r2 r3))) :
    ∃ t, exec i s = .next t ∧ Succeeds4 s t r0 r1 r2 r3 qs := by
  have hdone := finish_fresh_four (s := s) hfresh hp.1
  rw [hp.2, Prog.requests_done, List.append_nil] at hdone
  exact ⟨_, exec_eq_finish hf i, hdone⟩

end

/-! ### The wrap and the candidates -/

section Candidate

variable (ans : CollabReq → CollabRsp) (posLut : Lut) (face : Nat) (i j : Int) (k : Word → Prog)

/-- Two requests, and then the leaf of the point answered, or the fault (60_exceptions.md R270). -/
theorem fromFaceIjWrap_goesOn : GoesOn ans (fromFaceIjWrap posLut face i j k)
    (wrapTraffic ans face i j)
    ((wrapLeaf ans posLut face i j).elim (raise .projectionFault .cmdw) k) := by
  rw [GoesOn, fromFaceIjWrap, wrapLeaf, Prog.run_ask, Prog.requests_ask]
  split
  next h => exact ⟨(askFaceUV_fault _ rfl h).1, congrArg _ (askFaceUV_fault _ rfl h).2⟩
  next h => exact ⟨(askFaceUV_point _ rfl h).1, congrArg _ (askFaceUV_point _ rfl h).2⟩

theorem fromFaceIjSame_goesOn (same : Prop) [Decidable same] :
    GoesOn ans (fromFaceIjSame posLut face i j (decide same) k)
      (candidateTraffic ans face i j same)
      ((candidateLeaf ans posLut face i j same).elim (raise .projectionFault .cmdw) k) := by
  by_cases h : same
  · simp only [fromFaceIjSame, candidateTraffic, candidateLeaf, h, decide_true, if_true]
    exact ⟨rfl, rfl⟩
  · simp only [fromFaceIjSame, candidateTraffic, candidateLeaf, h, decide_false, if_false]
    exact fromFaceIjWrap_goesOn ..

section
variable {ans posLut face i j k} {same : Prop} [Decidable same]

theorem fromFaceIjSame_leaf {n : Word} (h : candidateLeaf ans posLut face i j same = some n) :
    GoesOn ans (fromFaceIjSame posLut face i j (decide same) k)
      (candidateTraffic ans face i j same) (k n) := by
  have hgo := fromFaceIjSame_goesOn ans posLut face i j k same
  rwa [h] at hgo

theorem fromFaceIjSame_fault (h : candidateLeaf ans posLut face i j same = none) :
    GoesOn ans (fromFaceIjSame posLut face i j (decide same) k)
      (candidateTraffic ans face i j same) (raise .projectionFault .cmdw) := by
  have hgo := fromFaceIjSame_goesOn ans posLut face i j k same
  rwa [h] at hgo

end

end Candidate

/-- Settles O54: after the check of its face the command is one wrap. -/
theorem fromFaceIjWrapAsksTwice : Obligations.FromFaceIjWrapAsksTwice := by
  refine fun s f hf hfresh => ⟨fun hface => exec_fails hf ?_, fun hface => ?_⟩
  · rw [commandProg, fromFaceIjWrapProg, checkFace_above hface]
  · have hwrap := fromFaceIjWrap_goesOn s.collabAnswer s.posLut f.op0.toNat f.op1.toInt f.op2.toInt
      return1
    have hprog : commandProg .fromFaceIjWrap s f =
        fromFaceIjWrap s.posLut f.op0.toNat f.op1.toInt f.op2.toInt return1 := by
      rw [commandProg, fromFaceIjWrapProg, checkFace_legal hface, s64, s64]
    rw [← hprog] at hwrap
    refine ⟨fun v hleaf => ?_, fun hleaf => ?_⟩ <;> rw [hleaf] at hwrap
    · exact exec_goesOn_succeeds1 hf hfresh hwrap
    · exact exec_goesOn_fails hf hfresh hwrap

/-- On a cell the command asks for its four candidates in turn (45_neighbors.md R247). -/
theorem edgeNeighborsProg_cellAt (posLut ijLut : Lut) {l x : Nat} (hl : l ≤ 30) (hx : x < 6 * 4 ^ l)
    {g : GridAddress} {i j z : Int} (hg : g = faceIjOrientation ijLut (cellAt l x))
    (hi : i = g.i) (hj : j = g.j) (hz : z = 2 ^ (30 - l)) :
    edgeNeighborsProg posLut ijLut (cellAt l x) =
      fromFaceIjSame posLut g.face i (j - z) (decide (j - z ≥ 0)) fun n0 =>
      fromFaceIjSame posLut g.face (i + z) j (decide (i + z < 2 ^ 30)) fun n1 =>
      fromFaceIjSame posLut g.face i (j + z) (decide (j + z < 2 ^ 30)) fun n2 =>
      fromFaceIjSame posLut g.face (i - z) j (decide (i - z ≥ 0)) fun n3 =>
      .done (.four (parentId n0 l) (parentId n1 l) (parentId n2 l) (parentId n3 l)) := by
  rw [edgeNeighborsProg, checkId_cellAt hl hx, edgeNeighbors, ← hg, ← hi, ← hj, ← hz]
  rfl

/-- Settles O56: one candidate after another goes on with its leaf, or ends the command. -/
theorem edgeNeighborsAnswersFourCells : Obligations.EdgeNeighborsAnswersFourCells := by
  intro s f l x hf hfresh hl hx hop g i j z hg hi hj hz c0 c1 c2 c3 q0 q1 q2 q3
  rintro rfl rfl rfl rfl rfl rfl rfl rfl
  rw [hop] at hg
  have hprog := edgeNeighborsProg_cellAt s.posLut s.ijLut hl hx hg hi hj hz
  rw [← hop] at hprog
  simp only [Option.ne_none_iff_exists']
  refine ⟨fun n0 n1 n2 n3 h0 h1 h2 h3 => exec_goesOn_succeeds4 hf hfresh ?_,
    fun h0 => exec_goesOn_fails hf hfresh ?_,
    fun ⟨n0, h0⟩ h1 => exec_goesOn_fails hf hfresh ?_,
    fun ⟨n0, h0⟩ ⟨n1, h1⟩ h2 => exec_goesOn_fails hf hfresh ?_,
    fun ⟨n0, h0⟩ ⟨n1, h1⟩ ⟨n2, h2⟩ h3 => exec_goesOn_fails hf hfresh ?_⟩
    <;> rw [commandProg, hprog]
  · exact (((fromFaceIjSame_leaf h0).trans (fromFaceIjSame_leaf h1)).trans
      (fromFaceIjSame_leaf h2)).trans (fromFaceIjSame_leaf h3)
  · exact fromFaceIjSame_fault h0
  · exact (fromFaceIjSame_leaf h0).trans (fromFaceIjSame_fault h1)
  · exact ((fromFaceIjSame_leaf h0).trans (fromFaceIjSame_leaf h1)).trans (fromFaceIjSame_fault h2)
  · exact (((fromFaceIjSame_leaf h0).trans (fromFaceIjSame_leaf h1)).trans
      (fromFaceIjSame_leaf h2)).trans (fromFaceIjSame_fault h3)

end Sys2Proof.Proofs.Neighbors


/-!
The level of a neighbour (45_neighbors.md R249): a candidate's leaf lies on a face, so its ancestor at any level
is a cell of that level, whatever the collaborator has answered.
-/

namespace Sys2Proof.Proofs.Neighbors

open Sys2Proof Sys2Proof.Machine Sys2Proof.Proofs.Cells Sys2Proof.Proofs.EncoderRange
  Sys2Proof.Proofs.LookupTables Sys2Proof.Proofs.Outcomes Sys2Proof.Proofs.Projection
  Sys2Proof.Proofs.Traversal

/-! ### Leaves and their ancestors -/

/-- Every ancestor of an id on a face is a cell of its level. -/
theorem exists_parentId_eq_cellAt {id : Word} (hface : id.toNat / 2 ^ 61 ≤ 5) {l : Nat} (hl : l ≤ 30) :
    ∃ y < 6 * 4 ^ l, parentId id l = cellAt l y := by
  have hy : id.toNat / 2 ^ (2 * (30 - l) + 1) < 6 * 4 ^ l := by
    rw [Nat.div_lt_iff_lt_mul (Nat.two_pow_pos _), Nat.mul_assoc, two_pow_split hl]
    omega
  exact ⟨_, hy, BitVec.eq_of_toNat_eq (by rw [parentId_toNat, cellAt_toNat hl hy])⟩

/-- `st_to_ij` answers a grid coordinate (41_projection.md R142). -/
theorem floorClamp_lt (x : FVal) : floorClamp x < 2 ^ 30 := by
  cases x with
  | nan => decide
  | inf s => cases s <;> decide
  | fin s m e =>
    have h := floorClamp_fin s m e
    rw [intClamp_eq (by decide)] at h
    omega

theorem requantise_lt (u : Word) : requantise u < 2 ^ 30 := floorClamp_lt _

theorem fromFaceIj_face {face i j : Nat} (hface : face ≤ 5) (hi : i < 2 ^ 30) (hj : j < 2 ^ 30) :
    (fromFaceIj builtPosLut face i j).toNat / 2 ^ 61 ≤ 5 := by
  obtain ⟨-, ⟨h, -⟩, -⟩ := encoderGivesValidLeaves face i j hface hi hj
  exact h

/-- The two leading zeros of the 30-bit position are the corner of the first subquadrants, so the 30-bit
coordinates have two leading zeros too (43_decoder.md R180). -/
theorem ij_lt_of_faceLeaf {face : Nat} {d : Quadrant} (h : FaceLeaf face d) (hpos : d.pos < 2 ^ 60) :
    d.i < 2 ^ 30 ∧ d.j < 2 ^ 30 := by
  obtain ⟨e, hse, hed⟩ := Descends.split (n := 2) (m := 30) h
  obtain ⟨hdi, hdj, hdp⟩ := hed.div (hse.o_lt (seed_lt face))
  have hseed : face &&& swapMask ≤ 1 := Nat.and_le_right
  obtain ⟨hei, hej⟩ := hse.corner (seed_lt face) (by simp only [seedQuadrant]; omega)
  simp only [seedQuadrant] at hei hej
  omega

theorem faceIjOrientation_ij_lt (id : Word) :
    (faceIjOrientation builtIjLut id).i < 2 ^ 30 ∧ (faceIjOrientation builtIjLut id).j < 2 ^ 30 := by
  obtain ⟨d, hd, hpos, hi, hj⟩ := exists_faceLeaf_decoded id
  rw [hi, hj]
  exact ij_lt_of_faceLeaf hd (by omega)

/-! ### The four candidates -/

section Ends

variable {P : CmdResult → Prop} (hfault : P (.error .projectionFault .cmdw)) {k : Word → Prog}
  (hk : ∀ leaf : Word, leaf.toNat / 2 ^ 61 ≤ 5 → AllEnds P (k leaf))
include hfault hk

theorem fromFaceIjWrap_ends (face : Nat) (i j : Int) :
    AllEnds P (fromFaceIjWrap builtPosLut face i j k) := by
  refine .ask fun _ => .ask fun r => ?_
  split
  next => exact .done hfault
  next h => exact hk _ (fromFaceIj_face (by omega) (requantise_lt _) (requantise_lt _))

theorem fromFaceIjSame_ends {face : Nat} {i j : Int} {same : Bool} (hface : face ≤ 5)
    (hi : same = true → i < 2 ^ 30) (hj : same = true → j < 2 ^ 30) :
    AllEnds P (fromFaceIjSame builtPosLut face i j same k) := by
  unfold fromFaceIjSame
  split
  next h =>
    have hi := hi h
    have hj := hj h
    exact hk _ (fromFaceIj_face hface (by omega) (by omega))
  next => exact fromFaceIjWrap_ends hfault hk face i j

end Ends

/-- A command that succeeds answers four cells of level `l`. -/
def AnswersCells (l : Nat) : CmdResult → Prop
  | .one _ => False
  | .four r0 r1 r2 r3 => ∀ r ∈ [r0, r1, r2, r3], ∃ y < 6 * 4 ^ l, r = cellAt l y
  | .error e _ => e ≠ .noError

theorem edgeNeighborsProg_ends {l x : Nat} (hl : l ≤ 30) (hx : x < 6 * 4 ^ l) :
    AllEnds (AnswersCells l) (edgeNeighborsProg builtPosLut builtIjLut (cellAt l x)) := by
  have hface : (faceIjOrientation builtIjLut (cellAt l x)).face ≤ 5 := by
    rw [faceIjOrientation, faceField_eq]
    exact (cellAt_isCellId hl hx).1
  obtain ⟨hi, hj⟩ := faceIjOrientation_ij_lt (cellAt l x)
  rw [edgeNeighborsProg_cellAt _ _ hl hx rfl rfl rfl rfl]
  have hz : (0 : Int) < 2 ^ (30 - l) := by positivity
  generalize (2 : Int) ^ (30 - l) = z at hz
  refine fromFaceIjSame_ends nofun (fun n0 h0 => ?_) hface (by omega) (by omega)
  refine fromFaceIjSame_ends nofun (fun n1 h1 => ?_) hface (by simp) (by omega)
  refine fromFaceIjSame_ends nofun (fun n2 h2 => ?_) hface (by omega) (by simp)
  refine fromFaceIjSame_ends nofun (fun n3 h3 => .done ?_) hface (by omega) (by omega)
  simp only [AnswersCells, List.forall_mem_cons, List.not_mem_nil, false_imp_iff, implies_true, and_true]
  exact ⟨exists_parentId_eq_cellAt h0 hl, exists_parentId_eq_cellAt h1 hl,
    exists_parentId_eq_cellAt h2 hl, exists_parentId_eq_cellAt h3 hl⟩

/-- Settles O57: every end of the program answers such cells or is an error, however far the exchanges had
come. -/
theorem neighborsKeepTheLevel : Obligations.NeighborsKeepTheLevel := by
  intro s t f l x hf hl hx hop hpos hij hexec hcode
  have hends : AllEnds (AnswersCells l) (commandProg .edgeNeighbors s f) := by
    rw [commandProg, hop, hpos, hij]
    exact edgeNeighborsProg_ends hl hx
  have hresult := allEnds_run (allEnds_resume hends f.responses) s.collabAnswer
  rw [exec_eq_finish hf, State.finish] at hexec
  injection hexec with ht
  subst ht
  generalize Prog.run _ _ = r at hresult hcode ⊢
  cases r with
  | one r0 => exact hresult.elim
  | four r0 r1 r2 r3 => exact hresult
  | error e a => exact absurd hcode hresult

end Sys2Proof.Proofs.Neighbors


/-!
The errors that need no collaborator (60_exceptions.md R265, R268, R269, R272): a failed initialisation, a word
that gives no command, a command accepted too early, and the checks that end a command before it asks.
-/

namespace Sys2Proof.Proofs.Exceptions

open Sys2Proof Sys2Proof.Machine Sys2Proof.Proofs.LookupTables Sys2Proof.Proofs.Outcomes

/-- Settles O9: a failing initialisation writes its outcome in the one step. -/
theorem initDoneFailsOnStrap : Obligations.InitDoneFailsOnStrap := by
  intro s rest ha hb hm
  rw [step_initDone ha, initDone_failing { s with agenda := rest } hb hm]

/-! ### A completion whose program only raises an error -/

section Completion

variable {s : State} {f : InFlight} {rest : List Event} (hf : s.inflight = some f)
  (ha : s.agenda = .complete :: rest)
include hf ha

theorem step_complete : step s = .next ({ s with agenda := rest }.finish f
    (f.gate (wordProg { s with agenda := rest } f))) := by
  have hstep : step s = completeInFlight { s with agenda := rest } := by simp only [step, ha, takeEvent]
  obtain ⟨hnone, -⟩ | ⟨f', hf', hdone⟩ := completeInFlight_cases { s with agenda := rest }
  · exact nomatch hf.symm.trans hnone
  · obtain rfl : f = f' := Option.some.inj (hf.symm.trans hf')
    exact hstep.trans hdone

theorem step_complete_fails {e : ErrCode} {a : ErrOperand}
    (hp : f.gate (wordProg { s with agenda := rest } f) = raise e a) :
    ∃ t, step s = .next t ∧ Fails { s with agenda := rest } t e a [] := by
  rw [step_complete hf ha, hp]
  exact ⟨_, rfl, finish_raise _ f e a⟩

end Completion

theorem wordProg_illegal {s : State} {f : InFlight} {e : DecodeError} (h : decode f.word = .error e) :
    wordProg s f = raise .illegalCommand .cmdw := by
  rw [wordProg, h, illegalProg]

/-- Settles O23: the gate lets the program of a word accepted while READY through. -/
theorem illegalWordCompletes : Obligations.IllegalWordCompletes := by
  rintro s f e rest ⟨hf, hready⟩ hd ha
  exact step_complete_fails hf ha ((gate_ready f _ hready).trans (wordProg_illegal hd))

/-- Settles O24: the gate replaces the word's program, whatever it is. -/
theorem notReadyComesFirst : Obligations.NotReadyComesFirst :=
  fun _ f _ hf hready ha => step_complete_fails hf ha (gate_notReady f _ hready)

/-! ### The checks come before the requests -/

/-- The ends left once the collaborator has been asked (60_exceptions.md R270). -/
def SucceedsOrFaults : CmdResult → Prop
  | .one _ | .four _ _ _ _ => True
  | .error e _ => e = .projectionFault

/-- A program that ends without asking, or whose only error is PROJECTION_FAULT. -/
inductive ChecksFirst : Prog → Prop
  | done (r : CmdResult) : ChecksFirst (.done r)
  | asks {p : Prog} (h : AllEnds SucceedsOrFaults p) : ChecksFirst p

theorem ChecksFirst.requests_eq_nil {p : Prog} (h : ChecksFirst p) {ans : CollabReq → CollabRsp}
    {e : ErrCode} {a : ErrOperand} (hrun : p.run ans = .error e a) (he : e ≠ .projectionFault) :
    p.requests ans = [] := by
  cases h with
  | done r => rfl
  | asks h =>
    have hend := allEnds_run h ans
    rw [hrun] at hend
    exact absurd hend he

section Checks

variable {p : Prog}

/-- An operand check in front of a program is one more end without asking. -/
theorem guard_checksFirst {c : Prop} [Decidable c] {e : ErrCode} {a : ErrOperand} (h : ChecksFirst p) :
    ChecksFirst (if c then raise e a else p) := by
  split
  · exact .done _
  · exact h

theorem checkId_checksFirst {x : Word} {n : ErrOperand} {k : Nat → Prog} (h : ∀ l, ChecksFirst (k l)) :
    ChecksFirst (checkId x n k) := guard_checksFirst (guard_checksFirst (h _))

/-- The NOT_READY check is in front of all others (60_exceptions.md R272). -/
theorem gate_checksFirst (f : InFlight) (h : ChecksFirst p) : ChecksFirst (f.gate p) := by
  unfold InFlight.gate
  split
  · exact h
  · exact .done _

end Checks

theorem one_succeeds (v : Word) : AllEnds SucceedsOrFaults (return1 v) := .done trivial

theorem four_succeeds (r0 r1 r2 r3 : Word) : AllEnds SucceedsOrFaults (.done (.four r0 r1 r2 r3)) :=
  .done trivial

/-- The only check of an answer (60_exceptions.md R270). -/
theorem askFaceUV_faults (pt : Config.Point) {k : Nat → Word → Word → Prog}
    (h : ∀ face u v, AllEnds SucceedsOrFaults (k face u v)) :
    AllEnds SucceedsOrFaults (askFaceUV pt k) := by
  refine .ask fun r => ?_
  split
  · exact .done rfl
  · exact h _ _ _

section Wrap

variable {posLut : Lut} {face : Nat} {i j : Int} {k : Word → Prog}
  (h : ∀ leaf, AllEnds SucceedsOrFaults (k leaf))
include h

theorem fromFaceIjWrap_faults : AllEnds SucceedsOrFaults (fromFaceIjWrap posLut face i j k) :=
  .ask fun _ => askFaceUV_faults _ fun _ _ _ => h _

theorem fromFaceIjSame_faults {same : Bool} :
    AllEnds SucceedsOrFaults (fromFaceIjSame posLut face i j same k) := by
  unfold fromFaceIjSame
  split
  · exact h _
  · exact fromFaceIjWrap_faults h

end Wrap

theorem edgeNeighbors_faults (posLut ijLut : Lut) (id : Word) (l : Nat) :
    AllEnds SucceedsOrFaults (edgeNeighbors posLut ijLut id l) := by
  unfold edgeNeighbors
  exact fromFaceIjSame_faults fun _ => fromFaceIjSame_faults fun _ => fromFaceIjSame_faults fun _ =>
    fromFaceIjSame_faults fun _ => four_succeeds ..

/-- Three commands ask, each after its operand checks (60_exceptions.md R272). -/
theorem commandProg_checksFirst (i : Instr) (s : State) (f : InFlight) :
    ChecksFirst (commandProg i s f) := by
  cases i with
  | isValid => exact .done _
  | lutRead | uvToSt => exact guard_checksFirst (.done _)
  | stToIj =>
    rw [commandProg, stToIjProg]
    exact guard_checksFirst (.done _)
  | fromFaceIj | fromFaceUv =>
    exact guard_checksFirst (guard_checksFirst (guard_checksFirst (.done _)))
  | toFaceIj | face | level | advance | advanceWrap | next | prev =>
    exact checkId_checksFirst fun _ => .done _
  | parent l => exact checkId_checksFirst fun _ => guard_checksFirst (.done _)
  | fromLatLng =>
    exact guard_checksFirst (guard_checksFirst
      (.asks (.ask fun _ => askFaceUV_faults _ fun _ _ _ => one_succeeds _)))
  | edgeNeighbors => exact checkId_checksFirst fun l => .asks (edgeNeighbors_faults _ _ _ l)
  | fromFaceIjWrap =>
    exact guard_checksFirst (.asks (fromFaceIjWrap_faults one_succeeds))

/-- Settles O29: the completion adds the requests of a program that has made none when it ends so. -/
theorem earlyErrorsAskNothing : Obligations.EarlyErrorsAskNothing := by
  intro i s t f hf hfresh hexec hcode hfault
  have hchecks := gate_checksFirst f (commandProg_checksFirst i s f)
  rw [exec_eq_complete, complete_busy _ hf] at hexec
  injection hexec with ht
  subst ht
  cases hrun : (f.gate (commandProg i s f)).run s.collabAnswer with
  | one r0 => exact absurd (finish_fresh_one hfresh hrun).errCode hcode
  | four r0 r1 r2 r3 => exact absurd (finish_fresh_four hfresh hrun).errCode hcode
  | error e a =>
    have hfails := finish_fresh_error hfresh hrun
    rw [hfails.errCode] at hfault
    rw [hfails.trace, hchecks.requests_eq_nil hrun hfault, List.append_nil]

end Sys2Proof.Proofs.Exceptions

/-!
Reset and the hazards (70_reset_and_hazards.md): what a reset edge leaves (R291, R303), operand writes during a
command (R298), and the block left to itself, which completes its command or waits for good (R300, R302).
-/

namespace Sys2Proof.Proofs.ResetAndHazards

open Sys2Proof Sys2Proof.Machine Sys2Proof.Proofs.Steps Sys2Proof.Proofs.Outcomes Sys2Proof.Proofs.Ports

/-! ### A reset edge -/

theorem step_reset {s : State} {strap : BitVec 2} {rest : List Event}
    (h : s.agenda = .reset strap :: rest) :
    step s = .next ({ s with agenda := rest }.resetTo strap) := by
  simp only [step, h, takeEvent]

theorem resetTo_status (s : State) (strap : BitVec 2) :
    (s.resetTo strap).status = 0x000000000000F000 := by
  simp [State.status, State.isReady, State.isBusy, State.isErr, State.isInitFail, ErrOperand.bits,
    ErrCode.bits]

theorem sound_resetTo (s : State) (strap : BitVec 2) : Sound (s.resetTo strap) :=
  ⟨tablesSound_resetTo s strap, commandSound_idle rfl rfl, outcomeSound_resetTo s strap⟩

/-- Settles O6: the step is the reset, and each field its reset value. -/
theorem resetEdgeGivesResetValues : Obligations.ResetEdgeGivesResetValues := fun s strap _ h =>
  ⟨_, step_reset h, rfl, rfl, rfl, rfl, rfl, rfl, rfl, rfl, resetTo_status { s with agenda := _ } strap,
    rfl, rfl, rfl, rfl, rfl⟩

/-- Settles O7: the state after reset is one a reset edge leaves. -/
theorem resetStateIsSound : Obligations.ResetStateIsSound :=
  ⟨sound_resetTo State.reset 0, resetTo_status State.reset 0⟩

/-! ### Operand writes -/

/-- Settles O16: the write of each operand register at its offset. -/
theorem operandWritesLeaveTheFlightAlone : Obligations.OperandWritesLeaveTheFlightAlone :=
  fun _ _ _ hs hp hw hsize =>
    ⟨fun hoff => step_hostAck_write hs hp hsize hoff rfl hw rfl,
      fun hoff => step_hostAck_write hs hp hsize hoff rfl hw rfl,
      fun hoff => step_hostAck_write hs hp hsize hoff rfl hw rfl⟩

/-! ### The block left to itself -/

section OwnMove

variable {s : State}

/-- With nothing scheduled, or behind a `WAIT` that goes on, a step is the block's own move. -/
theorem step_eq_ownMove (hs : s.agenda = [] ∨ ∃ rest, s.agenda = .pollBusy :: rest)
    (h : s.hostWaiting = true ∨ s.inflight ≠ none) : step s = ownMove s := by
  obtain hs | ⟨rest, hs⟩ := hs
  · simp only [step, hs]
  · have hgo : (s.hostWaiting || s.isBusy) = true := by
      simpa [State.isBusy, Option.isSome_iff_ne_none] using h
    simp only [step, hs, takeEvent, pollStatus, if_pos hgo]

theorem ownMove_answers (hw : s.hostWaiting = true) : ownMove s = .next s.answerHost := by
  simp [ownMove, hw]

theorem ownMove_stalled (hw : s.hostWaiting = false) (hst : s.stalled = true) :
    ownMove s = .next s.issueCollab := by
  simp [ownMove, hw, hst]

theorem ownMove_completes {f : InFlight} (hf : s.inflight = some f) (hw : s.hostWaiting = false)
    (hst : s.stalled = false) : ownMove s = .next (s.finish f (f.gate (wordProg s f))) := by
  have hown : ownMove s = completeInFlight s := by simp [ownMove, hw, hst, State.isBusy, hf]
  obtain ⟨hnone, -⟩ | ⟨f', hf', hdone⟩ := completeInFlight_cases s
  · exact nomatch hf.symm.trans hnone
  · obtain rfl : f = f' := Option.some.inj (hf.symm.trans hf')
    exact hown.trans hdone

theorem answerHost_answered (hw : s.hostWaiting = true) :
    ∃ r, s.answerHost.hostPort = .answered r := by
  obtain ⟨a, ha⟩ := (hostWaiting_iff s).mp hw
  exact ⟨(s.perform a).2, by simp [State.answerHost, ha, State.serve]⟩

end OwnMove

/-! ### The endless wait -/

/-- The command that waited in `s` still waits in `t`, the earlier outcome and results showing (R300). -/
def WaitsOn (s t : State) : Prop :=
  t.stalled = true ∧ t.agenda = s.agenda ∧
    t.res0 = s.res0 ∧ t.res1 = s.res1 ∧ t.res2 = s.res2 ∧ t.res3 = s.res3 ∧
    t.errCode = s.errCode ∧ t.errOperand = s.errOperand ∧ t.resultCount = s.resultCount

section Wait

variable {s : State} (hst : s.stalled = true)
include hst

theorem stalled_inflight : s.inflight ≠ none := by
  obtain ⟨f, q, k, hf, -⟩ := (stalled_iff s).mp hst
  simp [hf]

/-- The wait depends on the tables, the word, its operands and the responses alone. -/
theorem stalled_of_request {t : State} (r : InFlight → Option CollabReq)
    (hf : ∀ f, s.inflight = some f → t.inflight = some { f with request := r f })
    (hc : t.collabStalls = s.collabStalls) (hp : t.posLut = s.posLut) (hi : t.ijLut = s.ijLut) :
    t.stalled = true := by
  obtain ⟨f, q, k, hf', hstalls, hask⟩ := (stalled_iff s).mp hst
  rw [← wordProg_congr hp hi] at hask
  exact (stalled_iff t).mpr ⟨_, q, k, hf f hf', hc.trans hstalls, hask⟩

/-- What the host can reach does not end the wait. -/
theorem aside_waitsOn (x0 x1 x2 : Word) (b : Bool) (p : HostPort) :
    WaitsOn s (aside s x0 x1 x2 b p s.agenda) :=
  ⟨stalled_of_request hst InFlight.request (fun _ hf => hf) rfl rfl rfl,
    rfl, rfl, rfl, rfl, rfl, rfl, rfl, rfl⟩

/-- An access is answered; a new command is not accepted. -/
theorem answerHost_waitsOn : WaitsOn s s.answerHost := by
  obtain h | ⟨a, -, h⟩ := answerHost_cases s
  · rw [h]
    exact ⟨hst, rfl, rfl, rfl, rfl, rfl, rfl, rfl, rfl⟩
  · obtain ⟨x0, x1, x2, b, p, h'⟩ | ⟨w, p, hidle, -⟩ := serve_cases a s
    · rw [h, h']
      exact aside_waitsOn hst x0 x1 x2 b p
    · exact absurd hidle (stalled_inflight hst)

/-- The request is put on the port, and its response is what the command waits for. -/
theorem issueCollab_waitsOn : WaitsOn s s.issueCollab := by
  obtain h | ⟨f, q, k, hf, -, -, h⟩ := raiseCollab_cases (wordProg s) s
  · rw [State.issueCollab, h]
    exact ⟨hst, rfl, rfl, rfl, rfl, rfl, rfl, rfl, rfl⟩
  · rw [State.issueCollab, h]
    refine ⟨stalled_of_request hst (fun _ => some q) (fun f' hf' => ?_) rfl rfl rfl,
      rfl, rfl, rfl, rfl, rfl, rfl, rfl, rfl⟩
    obtain rfl : f = f' := Option.some.inj (hf.symm.trans hf')
    rfl

theorem ownMove_waitsOn : ∃ t, ownMove s = .next t ∧ WaitsOn s t := by
  cases hw : s.hostWaiting with
  | true => exact ⟨_, ownMove_answers hw, answerHost_waitsOn hst⟩
  | false => exact ⟨_, ownMove_stalled hw hst, issueCollab_waitsOn hst⟩

end Wait

/-- Settles O26: the step is the block's own move, which answers, completes, or waits on. -/
theorem leftToItselfTheBlockProgresses : Obligations.LeftToItselfTheBlockProgresses := by
  refine fun s hs => ⟨fun hw => ?_, stalled_answers, fun hw hbusy hst => ?_, fun hst => ?_⟩
  · obtain ⟨r, hr⟩ := answerHost_answered hw
    exact ⟨_, r, (step_eq_ownMove hs (.inl hw)).trans (ownMove_answers hw), hr, answerHost_agenda s⟩
  · obtain ⟨f, hf⟩ := Option.ne_none_iff_exists'.mp hbusy
    have hrest := finish_keepsRest s f (f.gate (wordProg s f))
    exact ⟨_, (step_eq_ownMove hs (.inr hbusy)).trans (ownMove_completes hf hw hst), hrest.inflight,
      hrest.agenda⟩
  · rw [step_eq_ownMove hs (.inr (stalled_inflight hst))]
    exact ownMove_waitsOn hst

end Sys2Proof.Proofs.ResetAndHazards
